-- ==== Sys2Proof/Word.lean ====
section
/-!
DEFINITION. The word types of the block (spec/00_scope.md R8): every value is unsigned and bit 0 is the least
significant bit.
-/

namespace Sys2Proof

/-- An 8-bit value: a command word, a field of `REPORT`, a byte of the image. -/
abbrev Byte := BitVec 8

/-- A 16-bit value: `whammy`, `ADC_SAMPLE`, the operand `dat`. -/
abbrev Half := BitVec 16

end Sys2Proof
end

