-- ==== Sys2Proof/Config.lean ====
section
/-!
DEFINITION. What an instance of the block fixes (spec/00_scope.md R6), the values its interfaces carry, and the free
values: constants with no body, of which no proof can know anything.
-/

namespace Sys2Proof

/-! ## What the interfaces carry -/

/-- The result of reading one mux line (10_state.md R24). -/
inductive LineRead where
  | high
  | low
  | fail
  deriving DecidableEq, Repr, Inhabited

/-- The eleven lines L0..L10, in the order of 10_state.md R24. -/
inductive Line where
  | fret1 | fret2 | fret3 | fret4 | fret5 | fret6
  | strumUp | strumDown | start | select | hero
  deriving DecidableEq, Repr, Inhabited

/-- One draw of the environment: the results of the eleven line reads of one `REFRESH`, L0 first
(40_sampler.md R91). -/
abbrev Lines := Vector LineRead 11

/-- The transport's answer to a send (42_orchestration.md R144). -/
inductive SendResult where
  | accepted
  | busy
  deriving DecidableEq, Repr, Inhabited

/-- Which agent takes the next step: the converter (40_sampler.md R86), or the one agent that issues commands
(42_orchestration.md R147). -/
inductive Agent where
  | converter
  | controller
  deriving DecidableEq, Repr, Inhabited

/-- A command at the block's input: the word `cmd[7:0]` and the parallel operand `dat[15:0]` (30_encoding.md R60). -/
structure Command where
  cmd : Byte
  dat : Half
  deriving DecidableEq, Repr, Inhabited

/-! ## The report descriptor's structure (41_encoder.md R130 to R133) -/

/-- The three fields of the record. -/
inductive ReportField where
  | whammy
  | frets
  | buttons
  deriving DecidableEq, Repr, Inhabited

/-- The device class of a top-level application collection: "gamepad", or any other. -/
inductive DeviceClass where
  | gamepad
  | other
  deriving DecidableEq, Repr, Inhabited

/-- One button usage of a field: its number, and the bit of the field it describes. -/
structure ButtonUsage where
  number : Nat
  bit : Nat
  deriving DecidableEq, Repr, Inhabited

/-- What the descriptor declares a field to be (41_encoder.md R132), with the bit of every button usage (R133). -/
inductive Usage where
  /-- One analog usage over the whole field: input data, variable, absolute. -/
  | axis
  /-- One button-page usage spanning these button usages. -/
  | buttonPage (buttons : List ButtonUsage)
  deriving DecidableEq, Repr, Inhabited

/-- The button usages of a field; none for an axis. -/
def Usage.buttonUsages : Usage → List ButtonUsage
  | .axis => []
  | .buttonPage buttons => buttons

/-- The declaration of one field: which field, where it lies in the report's input bits, and its usage. -/
structure FieldDecl where
  field : ReportField
  bitOffset : Nat
  bitWidth : Nat
  usage : Usage
  deriving DecidableEq, Repr, Inhabited

/-- The structure a descriptor declares. How the two spare bits of `frets` are declared is not stated (N14), and no
field here says it. -/
structure Schema where
  collections : Nat
  deviceClass : DeviceClass
  fields : List FieldDecl
  inputBits : Nat
  deriving DecidableEq, Repr, Inhabited

/-- The parameter `HID_REPORT_DESCRIPTOR`: its bytes, which are OPEN, and the structure they declare. The reading of
bytes as a structure is the host's and is not in the spec (93_implementation_defined.md I9). -/
structure Descriptor where
  bytes : List Byte
  schema : Schema
  deriving DecidableEq, Repr, Inhabited

/-! ## Parameters -/

/-- The parameters that 00_scope.md R6 marks OPEN. The binding of the lines, the channel and the identifiers have no
effect on any rule. -/
structure Params where
  /-- `ADC_BITS`, the converter's native resolution, 1..16. -/
  adcBits : Nat
  /-- `ADC_CHANNEL`. -/
  adcChannel : Nat
  /-- `PIN_MAP`: the physical pin of each line, L0 first. -/
  pinMap : Vector Nat 11
  usbVid : Nat
  usbPid : Nat
  /-- `HID_REPORT_DESCRIPTOR`. -/
  descriptor : Descriptor
  deriving DecidableEq, Repr, Inhabited

namespace Config

/-- `N_FRETS` (00_scope.md R6). -/
abbrev nFrets : Nat := 6

/-- `N_BUTTONS` (00_scope.md R6). -/
abbrev nButtons : Nat := 5

/-- `REPORT_BYTES` (00_scope.md R6). -/
abbrev reportBytes : Nat := 4

/-- Offset and width in bits of the record's fields, in the order of the image (20_memory.md R40, R44). -/
def recordLayout : List (ReportField × Nat × Nat) :=
  [(.whammy, 0, 16), (.frets, 16, 8), (.buttons, 24, 8)]

/-- Button usages 1..`n`, with usage i + 1 at bit i of its field: the numbers of 41_encoder.md R132 at the bits of the
record, where `frets` bit i is fret i + 1 (10_state.md R22, R23; 41_encoder.md R133). -/
def buttonUsagesInOrder (n : Nat) : List ButtonUsage :=
  (List.range n).map (fun i => { number := i + 1, bit := i })

/-- The usages of the three fields, in the order of the record: one axis, buttons 1..6, and buttons 1..8 of which the
record uses 5 (41_encoder.md R132; 90_conflicts.md C1). -/
def recordUsages : List Usage :=
  [.axis, .buttonPage (buttonUsagesInOrder 6), .buttonPage (buttonUsagesInOrder 8)]

/-- The structure that 41_encoder.md R131 to R133 give the descriptor. -/
def declaredSchema : Schema where
  collections := 1
  deviceClass := .gamepad
  fields :=
    [{ field := .whammy, bitOffset := 0, bitWidth := 16, usage := .axis },
     { field := .frets, bitOffset := 16, bitWidth := 8, usage := .buttonPage (buttonUsagesInOrder 6) },
     { field := .buttons, bitOffset := 24, bitWidth := 8, usage := .buttonPage (buttonUsagesInOrder 8) }]
  inputBits := 32

/-- `ADC_CHANNEL`, OPEN: a constant with no value. Log 5. -/
opaque adcChannel : Nat

/-- `PIN_MAP`, OPEN: a constant with no value. Log 5. -/
opaque pinMap : Vector Nat 11

/-- `USB_VID`, OPEN: a constant with no value. Log 5. -/
opaque usbVid : Nat

/-- `USB_PID`, OPEN: a constant with no value. Log 5. -/
opaque usbPid : Nat

/-- The bytes of `HID_REPORT_DESCRIPTOR`, OPEN: a constant with no value. Log 5. -/
opaque descriptorBytes : List Byte

/-- The parameters of the instance that `State.reset` starts. `ADC_BITS` is 16, which the spec takes for a model that
does not fix it, because it admits every sample (00_scope.md R6, D7). DESIGN CHOICE, log 4. -/
def params : Params where
  adcBits := 16
  adcChannel := adcChannel
  pinMap := pinMap
  usbVid := usbVid
  usbPid := usbPid
  descriptor := { bytes := descriptorBytes, schema := declaredSchema }

/-! ## Free values

Each is used when the queue of draws of its kind in the state is empty, and is applied to a counter that the draw
advances. Log 1. -/

/-- The reset draw of `ADC_SAMPLE` (10_state.md R33). Log 3. -/
opaque resetDraw : Half

/-- Which agent takes the step (20_memory.md R50). Log 2. -/
opaque freeAgent : Nat → Agent

/-- The converter's draw (40_sampler.md R86). -/
opaque freeSample : Nat → Half

/-- The eleven line results of one refresh (40_sampler.md R91). -/
opaque freeLines : Nat → Lines

/-- The answer to a poll (42_orchestration.md R143). -/
opaque freePoll : Nat → Bool

/-- The answer to a send (42_orchestration.md R144). -/
opaque freeSend : Nat → SendResult

/-- The command a harness issues (42_orchestration.md R147). -/
opaque freeCommand : Nat → Command

end Config

end Sys2Proof
end

