-- ==== Sys2Proof/Syntax.lean ====
section
/-!
DEFINITION. The commands of SBCMD version 1, one constructor per row of spec/opcode_table.json, and the
pseudo-instructions (30_encoding.md R63, R67).
-/

namespace Sys2Proof

/-- A command with its operands (30_encoding.md R62). `idx` is a bit index 0..7 and `val` the value of the bit;
which indices are legal is `Instr.WellFormed`. -/
inductive Instr where
  /-- `REFRESH` (40_sampler.md R90). -/
  | refresh
  /-- `READ_REPORT` (41_encoder.md R114). -/
  | readReport
  /-- `SETF idx, val` (41_encoder.md R110). -/
  | setf (idx : BitVec 3) (val : Bool)
  /-- `SETB idx, val` (41_encoder.md R111). -/
  | setb (idx : BitVec 3) (val : Bool)
  /-- `WRWH #imm16` (41_encoder.md R112). -/
  | wrwh (imm16 : Half)
  deriving DecidableEq, Repr, Inhabited

/-- The mnemonic of the opcode table. -/
def Instr.mnemonic : Instr → String
  | .refresh => "REFRESH"
  | .readReport => "READ_REPORT"
  | .setf _ _ => "SETF"
  | .setb _ _ => "SETB"
  | .wrwh _ => "WRWH"

/-- The pseudo-instructions (30_encoding.md R67), with `m` in 0..63 and 0..31. -/
inductive Pseudo where
  | setFrets (m : BitVec 6)
  | setButtons (m : BitVec 5)
  | sendCycle
  deriving DecidableEq, Repr, Inhabited

end Sys2Proof
end

