-- ==== Sys2Proof/WellFormed.lean ====
section
/-!
DEFINITION. Which instructions are legal, and which parameters are (30_encoding.md R63, R64; 00_scope.md R6;
41_encoder.md R131 to R133).
-/

namespace Sys2Proof

/-- `SETF` names a fret bit 0..5 and `SETB` a button bit 0..4 (30_encoding.md R63). -/
abbrev Instr.WellFormed : Instr → Prop
  | .refresh => True
  | .readReport => True
  | .setf idx _ => idx.toNat < Config.nFrets
  | .setb idx _ => idx.toNat < Config.nButtons
  | .wrwh _ => True

/-- The descriptor agrees with the record: one gamepad collection and the field order (41_encoder.md R131), the usages
(R132) with the bit of every button usage, and the offsets, widths and 32-bit total (R133). -/
abbrev Schema.Agrees (sch : Schema) : Prop :=
  sch.collections = 1 ∧ sch.deviceClass = .gamepad ∧
    sch.fields.map (fun d => (d.field, d.bitOffset, d.bitWidth)) = Config.recordLayout ∧
    sch.fields.map FieldDecl.usage = Config.recordUsages ∧
    sch.inputBits = 8 * Config.reportBytes

/-- The premises about the parameters: `ADC_BITS` is 1..16 (00_scope.md R6) and the descriptor agrees with the record
(41_encoder.md R133). -/
abbrev Params.Wf (p : Params) : Prop :=
  1 ≤ p.adcBits ∧ p.adcBits ≤ 16 ∧ p.descriptor.schema.Agrees

end Sys2Proof
end

