-- ==== Sys2Proof/Decode.lean ====
section
/-!
DEFINITION. Decoding of a command, total, with every reserved word rejected by name (30_encoding.md R61 to R65), the
opcode table, and the encoder. A command is one word, so there is no length decode (R60).
-/

namespace Sys2Proof

/-! ## Fields of the command word (30_encoding.md R61, R62) -/

/-- `cmd[7:4]`, the operation. -/
def opField (cmd : Byte) : BitVec 4 := cmd.extractLsb' 4 4

/-- `cmd[3:0]`, which formats N and D require to be 0. -/
def zField (cmd : Byte) : BitVec 4 := cmd.extractLsb' 0 4

/-- `cmd[3:1]`, the bit index of format B. -/
def idxField (cmd : Byte) : BitVec 3 := cmd.extractLsb' 1 3

/-- `cmd[0]`, the bit value of format B. -/
def valField (cmd : Byte) : Bool := cmd.getLsbD 0

/-! ## Decoding -/

/-- Why a command word is reserved (30_encoding.md R64, item by item). -/
inductive Reserved where
  /-- `op` is 0x0 or 0x6..0xF. -/
  | operation
  /-- `z` is not 0 in a word of format N or D. -/
  | lowNibble
  /-- `SETF` with idx 6 or 7, an unused bit of `frets`. -/
  | fretIndex
  /-- `SETB` with idx 5, 6 or 7, an unused bit of `buttons`. -/
  | buttonIndex
  deriving DecidableEq, Repr, Inhabited

/-- The instruction a command selects, or why its word is reserved (30_encoding.md R63, R64). -/
def decode (c : Command) : Except Reserved Instr :=
  match opField c.cmd with
  | 0x1#4 => if zField c.cmd = 0#4 then .ok .refresh else .error .lowNibble
  | 0x2#4 => if zField c.cmd = 0#4 then .ok .readReport else .error .lowNibble
  | 0x3#4 =>
    if (idxField c.cmd).toNat < Config.nFrets then .ok (.setf (idxField c.cmd) (valField c.cmd))
    else .error .fretIndex
  | 0x4#4 =>
    if (idxField c.cmd).toNat < Config.nButtons then .ok (.setb (idxField c.cmd) (valField c.cmd))
    else .error .buttonIndex
  | 0x5#4 => if zField c.cmd = 0#4 then .ok (.wrwh c.dat) else .error .lowNibble
  | _ => .error .operation

/-- The word of an instruction: `op` and `z`, or `op`, `idx` and `val` (30_encoding.md R61, R66). -/
def encodeWord : Instr → Byte
  | .refresh => 0x10#8
  | .readReport => 0x20#8
  | .setf idx val => 0x3#4 ++ idx ++ BitVec.ofBool val
  | .setb idx val => 0x4#4 ++ idx ++ BitVec.ofBool val
  | .wrwh _ => 0x50#8

/-- The operand presented with an instruction: `imm16` for `WRWH`. Every other command ignores `dat` (30_encoding.md
R60), and 0 is presented. DESIGN CHOICE, log 17. -/
def encodeDat : Instr → Half
  | .wrwh imm16 => imm16
  | .refresh | .readReport | .setf _ _ | .setb _ _ => 0#16

/-- The command of an instruction. -/
def encode (i : Instr) : Command := { cmd := encodeWord i, dat := encodeDat i }

/-! ## The opcode table -/

/-- A row of spec/opcode_table.json: a word fits the row when its bits under `mask` are `bits`. -/
structure OpcodeRow where
  mnemonic : String
  mask : Byte
  bits : Byte
  deriving DecidableEq, Repr

/-- spec/opcode_table.json. -/
def opcodeTable : List OpcodeRow :=
  [{ mnemonic := "REFRESH", mask := 0xFF, bits := 0x10 },
   { mnemonic := "READ_REPORT", mask := 0xFF, bits := 0x20 },
   { mnemonic := "SETF", mask := 0xF0, bits := 0x30 },
   { mnemonic := "SETB", mask := 0xF0, bits := 0x40 },
   { mnemonic := "WRWH", mask := 0xFF, bits := 0x50 }]

/-- Whether a word fits a row. -/
def OpcodeRow.fits (r : OpcodeRow) (cmd : Byte) : Bool := cmd &&& r.mask == r.bits

/-! ## Commands numbered as the opcode table numbers bits -/

/-- The command whose bits are `w`: bits 7:0 are `cmd`, and bits 23:8 are `dat`. Every bit from `nbits` on is 0.
DESIGN CHOICE, log 11. -/
def commandOfBits (nbits w : Nat) : Command where
  cmd := BitVec.ofNat 8 (w % 2 ^ nbits)
  dat := BitVec.ofNat 16 (w % 2 ^ nbits / 2 ^ 8)

/-- The instruction the decoder reads from the bits `w`, none where the word is reserved. -/
def decodeTableWord (nbits w : Nat) : Option Instr :=
  match decode (commandOfBits nbits w) with
  | .ok i => some i
  | .error _ => none

end Sys2Proof
end

