-- ==== Sys2Proof/Machine/Operands.lean ====
section
/-!
DEFINITION. The combinational functions on operands and inputs: the bit-setter, the conversion of a line result to a
bit, the mux table, and the converter's zero-extension (40_sampler.md R80 to R86; 10_state.md R24, R29).
-/

namespace Sys2Proof.Machine

/-- 1 for true, 0 for false (00_scope.md R9). -/
def boolToBit (b : Bool) : BitVec 1 := BitVec.ofBool b

/-- `set_bit(v, i, s)` (40_sampler.md R80): the only writer of `frets` and `buttons` (R82). -/
def setBit (v : Byte) (i : BitVec 3) (s : Bool) : Byte :=
  (v &&& ~~~(0x01#8 <<< i.toNat)) ||| ((boolToBit s).setWidth 8 <<< i.toNat)

/-- `line_bit(r)` (40_sampler.md R83): a failed read counts as 0 (R84). -/
def lineBit : LineRead → BitVec 1
  | .high => 1#1
  | .low => 0#1
  | .fail => 0#1

/-- The number k of line Lk (10_state.md R24). -/
def lineIndex : Line → Fin 11
  | .fret1 => 0
  | .fret2 => 1
  | .fret3 => 2
  | .fret4 => 3
  | .fret5 => 4
  | .fret6 => 5
  | .strumUp => 6
  | .strumDown => 7
  | .start => 8
  | .select => 9
  | .hero => 10

/-- The field of the report a line's bit goes to (10_state.md R24). -/
def lineField : Line → ReportField
  | .fret1 | .fret2 | .fret3 | .fret4 | .fret5 | .fret6 => .frets
  | .strumUp | .strumDown | .start | .select | .hero => .buttons

/-- The bit of that field (10_state.md R22, R23, R24). -/
def lineDest : Line → BitVec 3
  | .fret1 => 0
  | .fret2 => 1
  | .fret3 => 2
  | .fret4 => 3
  | .fret5 => 4
  | .fret6 => 5
  | .strumUp => 0
  | .strumDown => 1
  | .start => 2
  | .select => 3
  | .hero => 4

/-- The six fret lines L0..L5, in order. -/
def fretLines : List Line := [.fret1, .fret2, .fret3, .fret4, .fret5, .fret6]

/-- The five button lines L6..L10, in order. -/
def buttonLines : List Line := [.strumUp, .strumDown, .start, .select, .hero]

/-- `ReadLine(k)` in one draw of the environment (10_state.md R24). -/
def readLine (l : Lines) (k : Line) : LineRead := l.get (lineIndex k)

/-- `set_bit` applied for each line of `ks`, in order, with the line's bit (40_sampler.md R90). -/
def packLines (ks : List Line) (l : Lines) (v : Byte) : Byte :=
  ks.foldl (fun v k => setBit v (lineDest k) (lineBit (readLine l k) == 1#1)) v

/-- `zext_16` of the converter's `ADC_BITS`-bit value, the low `bits` bits of a draw (40_sampler.md R86; 10_state.md
R29). Log 14. -/
def convertedSample (bits : Nat) (v : Half) : Half := (v.setWidth bits).setWidth 16

end Sys2Proof.Machine
end

