-- ==== Sys2Proof/Machine/State.lean ====
section
/-!
DEFINITION. The state of the machine, why a step stops, and the state after reset (10_state.md; 42_orchestration.md
R140; 60_exceptions.md R161 to R163; 70_reset_and_hazards.md R180).
-/

namespace Sys2Proof.Machine

/-- The register `REPORT` (10_state.md R20 to R23). -/
structure Report where
  whammy : Half
  frets : Byte
  buttons : Byte
  deriving DecidableEq, Repr, Inhabited

/-- The four bytes of the report image, by offset (20_memory.md R40). -/
abbrev Image := Vector Byte 4

/-- The controller's phase (42_orchestration.md R140). -/
inductive Phase where
  | poll
  | refresh
  | send
  deriving DecidableEq, Repr, Inhabited

/-- Which agent issues the commands: the orchestration loop, or a test harness in its place (42_orchestration.md
R147). The model's own field, log 10. -/
inductive Issuer where
  | controller
  | harness
  deriving DecidableEq, Repr, Inhabited

/-- One send: the bytes offered and the transport's answer (42_orchestration.md R141, R144). -/
structure SendAttempt where
  bytes : Image
  result : SendResult
  deriving DecidableEq, Repr

/-- The draws to come, one queue per interface, and how many free values have been used. A draw takes the head of its
queue; when the queue is empty it is a free value. The model's own field, log 1. -/
structure Inputs where
  agents : List Agent
  samples : List Half
  lines : List Lines
  polls : List Bool
  sends : List SendResult
  commands : List Command
  drawn : Nat
  deriving DecidableEq, Repr

/-- The machine. -/
structure State where
  /-- The parameters; no step changes them (10_state.md R34). No architectural state, log 6. -/
  params : Params
  /-- `REPORT` (10_state.md R20). -/
  report : Report
  /-- `ADC_SAMPLE` (10_state.md R29). -/
  adcSample : Half
  /-- The controller's phase (42_orchestration.md R140). -/
  phase : Phase
  /-- The refusal mark: the reserved words refused so far, oldest first. The run is marked when it is not empty
  (60_exceptions.md R161, R163). Log 9. -/
  refusalMark : List Byte
  /-- The output `rpt[0..3]`: what the latest `READ_REPORT` returned, none before the first (30_encoding.md R60,
  41_encoder.md R115). Log 7. -/
  rpt : Option Image
  /-- The sends so far, oldest first (42_orchestration.md R141). Log 8. -/
  sent : List SendAttempt
  /-- Who issues commands. Log 10. -/
  issuer : Issuer
  /-- The draws to come. Log 1. -/
  inputs : Inputs
  deriving DecidableEq, Repr

/-- Why the machine stops with a fault: never. The spec has no fault, trap or fatal error path (60_exceptions.md R160,
R166), so there is no constructor. Safe: nothing is left out. Log 21. -/
inductive Fault where
  deriving DecidableEq, Repr

/-- Why a step is refused. -/
inductive Refusal where
  /-- Raised by `exec` for an instruction with no meaning yet; none is left. Safe: the run ends. -/
  | notModelled (mnemonic : String)
  /-- `Refused(ReservedCommand(cmd))` (60_exceptions.md R163): raised by issuing a reserved word, and by `SETF` and
  `SETB` with the index of an unused bit. `after` is the state after the refused step, which differs in the refusal
  mark alone. Safe: the run ends, so nothing can be proved of a run that issued the word. Log 9. -/
  | reservedCommand (cmd : Byte) (why : Reserved) (after : State)
  /-- Raised by `memRead` for an access to the image that the block does not have (20_memory.md R45); no command makes
  one. Safe: nothing is read. Log 16. -/
  | imageAccess (offset length : Nat)
  deriving DecidableEq, Repr

/-- The outcome of a step or a command. -/
abbrev Result := Host.Outcome State Fault Refusal

/-- The reset value of `REPORT`: every field zero (10_state.md R33, 41_encoder.md R117). -/
def Report.idle : Report := { whammy := 0x0000#16, frets := 0x00#8, buttons := 0x00#8 }

/-- No draw chosen in advance: every draw is a free value. DESIGN CHOICE, log 1. -/
def Inputs.free : Inputs :=
  { agents := [], samples := [], lines := [], polls := [], sends := [], commands := [], drawn := 0 }

/-- The state after reset of the instance with parameters `p`, with reset draw `d` (70_reset_and_hazards.md R180). -/
def State.resetWith (p : Params) (d : Half) : State where
  params := p
  report := Report.idle
  adcSample := convertedSample p.adcBits d
  phase := .poll
  refusalMark := []
  rpt := none
  sent := []
  issuer := .controller
  inputs := Inputs.free

/-- The machine right after reset. `ADC_SAMPLE` holds a free value (10_state.md R33). Logs 3, 4. -/
def State.reset : State := State.resetWith Config.params Config.resetDraw

end Sys2Proof.Machine
end

