-- ==== Sys2Proof/Machine/Ops.lean ====
section
/-!
DEFINITION. The named operations: the report image and its one read, the updates of the state, the draws, and the
refusal, which every reserved word goes through. There is no exception to take and none to return from
(60_exceptions.md R166, R167).
-/

namespace Sys2Proof.Machine

/-! ## The report image (20_memory.md R40 to R45) -/

/-- The image of a report: `whammy` little-endian, then `frets`, then `buttons` (20_memory.md R40). -/
def Report.image (r : Report) : Image :=
  #v[r.whammy.extractLsb' 0 8, r.whammy.extractLsb' 8 8, r.frets, r.buttons]

/-- The image as one little-endian 32-bit word (20_memory.md R44). -/
def Image.word32 (b : Image) : BitVec 32 := b[3] ++ b[2] ++ b[1] ++ b[0]

/-- Offsets 0..1 as a little-endian 16-bit word (20_memory.md R44). -/
def Image.word16 (b : Image) : BitVec 16 := b[1] ++ b[0]

/-- `MemRead(offset, length)`: the whole image, or a refusal (20_memory.md R45). -/
def memRead (r : Report) (offset length : Nat) : Except Refusal Image :=
  if offset = 0 ∧ length = Config.reportBytes then .ok r.image else .error (.imageAccess offset length)

/-- The content of a field as a number. -/
def Report.fieldValue (r : Report) : ReportField → Nat
  | .whammy => r.whammy.toNat
  | .frets => r.frets.toNat
  | .buttons => r.buttons.toNat

/-! ## Updates of the report and of the state -/

def Report.withWhammy (r : Report) (v : Half) : Report := { r with whammy := v }

def Report.withFrets (r : Report) (v : Byte) : Report := { r with frets := v }

def Report.withButtons (r : Report) (v : Byte) : Report := { r with buttons := v }

def State.withReport (s : State) (r : Report) : State := { s with report := r }

def State.withAdcSample (s : State) (v : Half) : State := { s with adcSample := v }

def State.withPhase (s : State) (p : Phase) : State := { s with phase := p }

def State.withRpt (s : State) (b : Image) : State := { s with rpt := some b }

def State.withSent (s : State) (l : List SendAttempt) : State := { s with sent := l }

def State.withIssuer (s : State) (i : Issuer) : State := { s with issuer := i }

def State.withInputs (s : State) (e : Inputs) : State := { s with inputs := e }

def State.withParams (s : State) (p : Params) : State := { s with params := p }

/-- Record a refused word in the sticky refusal mark (60_exceptions.md R163). -/
def State.withRefused (s : State) (cmd : Byte) : State := { s with refusalMark := s.refusalMark ++ [cmd] }

/-! ## Refusal -/

/-- `raise Refused(ReservedCommand(cmd))` (60_exceptions.md R163): nothing changes but the refusal mark. -/
def refuse (cmd : Byte) (why : Reserved) (s : State) : Result :=
  .refused (.reservedCommand cmd why (s.withRefused cmd))

/-! ## Draws

A draw is the head of its queue, or a free value when the queue is empty; taking it removes the head, or counts the
free value. -/

/-- The count of used free values after a draw from `q`. -/
def drawnAfter {α : Type} (q : List α) (n : Nat) : Nat := if q.isEmpty then n + 1 else n

def State.nextAgent (s : State) : Agent := s.inputs.agents.headD (Config.freeAgent s.inputs.drawn)

def State.popAgent (s : State) : State :=
  s.withInputs { s.inputs with
    agents := s.inputs.agents.tail, drawn := drawnAfter s.inputs.agents s.inputs.drawn }

def State.nextSample (s : State) : Half := s.inputs.samples.headD (Config.freeSample s.inputs.drawn)

def State.popSample (s : State) : State :=
  s.withInputs { s.inputs with
    samples := s.inputs.samples.tail, drawn := drawnAfter s.inputs.samples s.inputs.drawn }

def State.nextLines (s : State) : Lines := s.inputs.lines.headD (Config.freeLines s.inputs.drawn)

def State.popLines (s : State) : State :=
  s.withInputs { s.inputs with
    lines := s.inputs.lines.tail, drawn := drawnAfter s.inputs.lines s.inputs.drawn }

def State.nextPoll (s : State) : Bool := s.inputs.polls.headD (Config.freePoll s.inputs.drawn)

def State.popPoll (s : State) : State :=
  s.withInputs { s.inputs with
    polls := s.inputs.polls.tail, drawn := drawnAfter s.inputs.polls s.inputs.drawn }

def State.nextSend (s : State) : SendResult := s.inputs.sends.headD (Config.freeSend s.inputs.drawn)

def State.popSend (s : State) : State :=
  s.withInputs { s.inputs with
    sends := s.inputs.sends.tail, drawn := drawnAfter s.inputs.sends s.inputs.drawn }

def State.nextCommand (s : State) : Command := s.inputs.commands.headD (Config.freeCommand s.inputs.drawn)

def State.popCommand (s : State) : State :=
  s.withInputs { s.inputs with
    commands := s.inputs.commands.tail, drawn := drawnAfter s.inputs.commands s.inputs.drawn }

/-! ## Power and enumeration -/

/-- A power cycle is a reset with a new draw (60_exceptions.md R173). The draws to come and the count of the free values
used stand outside the block and are kept, so that every draw after it is as fresh as one before it (10_state.md R24):
DESIGN CHOICE, log 19. So is that the issuer, the refusal mark and the records of outputs start anew. -/
def powerCycle (d : Half) (s : State) : State := (State.resetWith s.params d).withInputs s.inputs

/-- What the transport gives the host at enumeration (42_orchestration.md R148). -/
def enumerationData (s : State) : Nat × Nat × List Byte :=
  (s.params.usbVid, s.params.usbPid, s.params.descriptor.bytes)

/-! ## Outcomes -/

/-- Apply `f` to the next state of an outcome; a refusal passes through. -/
def Result.mapNext (f : State → State) : Result → Result
  | .next s => .next (f s)
  | .fault r => .fault r
  | .refused r => .refused r

end Sys2Proof.Machine
end

