-- ==== Sys2Proof/Machine/Encoder.lean ====
section
/-!
DEFINITION. The report encoder: the mutation ports `SETF`, `SETB` and `WRWH`, and `READ_REPORT` (41_encoder.md R110 to
R116).
-/

namespace Sys2Proof.Machine

/-- `READ_REPORT` (41_encoder.md R114): the image goes to the output `rpt`. -/
def execReadReport (s : State) : Result :=
  match memRead s.report 0 Config.reportBytes with
  | .ok b => .next (s.withRpt b)
  | .error r => .refused r

/-- `SETF idx, val` (41_encoder.md R110). -/
def execSetf (idx : BitVec 3) (val : Bool) (s : State) : Result :=
  if idx.toNat < Config.nFrets then
    .next (s.withReport (s.report.withFrets (setBit s.report.frets idx val)))
  else refuse (encodeWord (.setf idx val)) .fretIndex s

/-- `SETB idx, val` (41_encoder.md R111). -/
def execSetb (idx : BitVec 3) (val : Bool) (s : State) : Result :=
  if idx.toNat < Config.nButtons then
    .next (s.withReport (s.report.withButtons (setBit s.report.buttons idx val)))
  else refuse (encodeWord (.setb idx val)) .buttonIndex s

/-- `WRWH #imm16` (41_encoder.md R112): verbatim, no scaling, no extension. -/
def execWrwh (imm16 : Half) (s : State) : Result :=
  .next (s.withReport (s.report.withWhammy imm16))

end Sys2Proof.Machine
end

