-- ==== Sys2Proof/Machine/Sampler.lean ====
section
/-!
DEFINITION. The input sampler: `REFRESH` and the converter's step (40_sampler.md R86, R90 to R95).
-/

namespace Sys2Proof.Machine

/-- The report after a refresh with the line results `l` and the sample `adc` (40_sampler.md R90). -/
def refreshReport (l : Lines) (adc : Half) (r : Report) : Report :=
  ((r.withFrets (packLines fretLines l r.frets)).withButtons
    (packLines buttonLines l r.buttons)).withWhammy adc

/-- `REFRESH` (40_sampler.md R90): one draw of the eleven lines and one read of `ADC_SAMPLE` (R91, R92). -/
def execRefresh (s : State) : Result :=
  .next (s.popLines.withReport (refreshReport s.nextLines s.adcSample s.report))

/-- `ADC_CONVERT(v)` with a drawn v (40_sampler.md R86). -/
def converterStep (s : State) : Result :=
  .next (s.popSample.withAdcSample (convertedSample s.params.adcBits s.nextSample))

end Sys2Proof.Machine
end

