-- ==== Sys2Proof/Machine/Dispatch.lean ====
section
/-! DEFINITION. The block's execution of one decoded command: one arm per row of spec/opcode_table.json. -/

namespace Sys2Proof.Machine

def exec (i : Instr) (s : State) : Host.Outcome State Fault Refusal :=
  match i with
  | .refresh => Sys2Proof.Machine.execRefresh s
  | .readReport => Sys2Proof.Machine.execReadReport s
  | .setf idx val => Sys2Proof.Machine.execSetf idx val s
  | .setb idx val => Sys2Proof.Machine.execSetb idx val s
  | .wrwh imm16 => Sys2Proof.Machine.execWrwh imm16 s

end Sys2Proof.Machine
end

