-- ==== Sys2Proof/Machine/Flags.lean ====
section
/-!
DEFINITION. The block has no flags and no condition codes (10_state.md R31): no command computes one. What a command
leaves beside its state is the outcome tag of 60_exceptions.md R161, given here as functions of the outcome.
-/

namespace Sys2Proof.Machine

/-- The outcome tags (60_exceptions.md R161). -/
inductive Tag where
  | ok
  | lineFail (k : Line)
  | sendBusy
  | refusedReserved (cmd : Byte)
  deriving DecidableEq, Repr

/-- The one tag of a command's outcome; none for an outcome the spec has no tag for (60_exceptions.md R161, R165). -/
def commandTag : Result → Option Tag
  | .next _ => some .ok
  | .refused (.reservedCommand cmd _ _) => some (.refusedReserved cmd)
  | .refused _ => none
  | .fault _ => none

/-- `LINE_FAIL(k)` for each line that failed in a refresh, in line order (60_exceptions.md R161). -/
def lineFailTags (l : Lines) : List Tag :=
  ((fretLines ++ buttonLines).filter (fun k => readLine l k == .fail)).map .lineFail

/-- `SEND_BUSY` for a send the transport rejected (60_exceptions.md R161). -/
def sendTags : SendResult → List Tag
  | .accepted => []
  | .busy => [.sendBusy]

end Sys2Proof.Machine
end

