-- ==== Sys2Proof/Machine/Orchestration.lean ====
section
/-!
DEFINITION. Who issues commands and when: the orchestration loop, the transport's answers, a test harness in the loop's
place, the interleaving with the converter, and runs of several commands (42_orchestration.md R140 to R147;
20_memory.md R49, R50; 30_encoding.md R67).
-/

namespace Sys2Proof.Machine

/-- Issue one command to the block: run what it decodes to, or refuse a reserved word (30_encoding.md R60, R64). -/
def issue (c : Command) (s : State) : Result :=
  match decode c with
  | .ok i => exec i s
  | .error why => refuse c.cmd why s

/-- Hand what `rpt` holds to the transport; the result is ignored, and the phase is `Poll` again (42_orchestration.md
R141, R144, R145). -/
def transportSend (s : State) : State :=
  (s.popSend.withSent
    (s.sent ++ s.rpt.toList.map (fun b => { bytes := b, result := s.nextSend }))).withPhase .poll

/-- The controller's step (42_orchestration.md R141). It presents 0 on `dat`, which neither command reads, log 17. -/
def controllerStep (s : State) : Result :=
  match s.phase with
  | .poll => .next (s.popPoll.withPhase (if s.nextPoll then .refresh else .poll))
  | .refresh => Result.mapNext (fun t => t.withPhase .send) (issue (encode .refresh) s)
  | .send => Result.mapNext transportSend (issue (encode .readReport) s)

/-- The step of a harness in the controller's place: it issues its next command (42_orchestration.md R147). -/
def harnessStep (s : State) : Result := issue s.nextCommand s.popCommand

/-- The step of the one agent that issues commands (42_orchestration.md R147). -/
def issuerStep (s : State) : Result :=
  match s.issuer with
  | .controller => controllerStep s
  | .harness => harnessStep s

/-- One step of the agent that moves (20_memory.md R50). -/
def agentStep (s : State) : Result :=
  match s.nextAgent with
  | .converter => converterStep s.popAgent
  | .controller => issuerStep s.popAgent

/-- `s` with a harness in the controller's place, about to issue `c`. Log 11. -/
def aboutToIssue (c : Command) (s : State) : State :=
  (s.withIssuer .harness).withInputs { s.inputs with
    agents := .controller :: s.inputs.agents, commands := c :: s.inputs.commands }

/-- Where a run stands after an outcome from `s`, a refused command included: a harness may go on after one, under the
step rules (60_exceptions.md R163; spec/95_test_vectors.md P4). -/
def stateAfter (s : State) : Result → State
  | .next t => t
  | .refused (.reservedCommand _ _ t) => t
  | .refused _ => s
  | .fault _ => s

/-- Commands in program order, up to the first refusal (20_memory.md R49). -/
def execAll : List Instr → State → Result
  | [], s => .next s
  | i :: is, s =>
    match exec i s with
    | .next t => execAll is t
    | .fault r => .fault r
    | .refused r => .refused r

/-- The instructions a pseudo-instruction stands for (30_encoding.md R67). -/
def expand : Pseudo → List Instr
  | .setFrets m =>
    [.setf 0 (m.getLsbD 0), .setf 1 (m.getLsbD 1), .setf 2 (m.getLsbD 2),
     .setf 3 (m.getLsbD 3), .setf 4 (m.getLsbD 4), .setf 5 (m.getLsbD 5)]
  | .setButtons m =>
    [.setb 0 (m.getLsbD 0), .setb 1 (m.getLsbD 1), .setb 2 (m.getLsbD 2),
     .setb 3 (m.getLsbD 3), .setb 4 (m.getLsbD 4)]
  | .sendCycle => [.refresh, .readReport]

end Sys2Proof.Machine
end

