-- ==== Sys2Proof/Machine/Step.lean ====
section
/-! DEFINITION. One step of the machine, and placing an instruction where the next step runs it. -/

namespace Sys2Proof.Machine

/-- One atomic step of one agent (00_scope.md R7, R10). -/
def step (s : State) : Host.Outcome State Fault Refusal := agentStep s

/-- `s` with the instruction whose bits are `w` issued by the next step. The block fetches no instructions
(20_memory.md R54), so a harness takes the controller's place and issues the command. Log 11. -/
def State.withFetchWord (s : State) (nbits w : Nat) : State := aboutToIssue (commandOfBits nbits w) s

end Sys2Proof.Machine
end

