-- ==== Sys2Proof/Machine/Assembler.lean ====
section
/-!
DEFINITION. The assembler syntax of 30_encoding.md R66 and R67: one command per line, a comment from `;` on. An operand
out of range is an assembly error, not a reserved word. What the rules leave open of the text (spaces, letter case,
leading zeros) is log 23.
-/

namespace Sys2Proof.Machine

/-- Why a line does not assemble. -/
inductive AsmError where
  /-- No form of R66 or R67 has this mnemonic with this many operands. -/
  | unknownForm
  /-- An operand is no number and no name of the form. -/
  | badOperand
  /-- A number is outside the range of its operand. -/
  | outOfRange
  deriving DecidableEq, Repr, Inhabited

/-! ## Numbers -/

def decimalDigit (c : Char) : Option Nat :=
  if 48 ≤ c.toNat ∧ c.toNat ≤ 57 then some (c.toNat - 48) else none

def hexDigit (c : Char) : Option Nat :=
  if 48 ≤ c.toNat ∧ c.toNat ≤ 57 then some (c.toNat - 48)
  else if 65 ≤ c.toNat ∧ c.toNat ≤ 70 then some (c.toNat - 55)
  else if 97 ≤ c.toNat ∧ c.toNat ≤ 102 then some (c.toNat - 87)
  else none

/-- The number that `acc` and then the digits `cs` make, in base `base`. -/
def digitsValue (digit : Char → Option Nat) (base : Nat) : Nat → List Char → Option Nat
  | acc, [] => some acc
  | acc, c :: cs =>
    match digit c with
    | some d => digitsValue digit base (acc * base + d) cs
    | none => none

/-- A decimal number of at least one digit. Any count of leading zeros is accepted, in an index, a `val` and an imm16
alike (`SETF 02, 01` is `SETF 2, 1`): DESIGN CHOICE, log 23, since R66 says nothing of them. -/
def decimalNumber : List Char → Option Nat
  | [] => none
  | c :: cs => digitsValue decimalDigit 10 0 (c :: cs)

/-- A decimal number, or a hex number of at least one digit after `0x`, leading zeros accepted in both: DESIGN CHOICE,
log 23. -/
def number : List Char → Option Nat
  | '0' :: 'x' :: c :: cs => digitsValue hexDigit 16 0 (c :: cs)
  | cs => decimalNumber cs

/-! ## Words of a line -/

/-- Put the reversed word `cur` before `rest`, unless it is empty. -/
def flushWord (cur : List Char) (rest : List (List Char)) : List (List Char) :=
  match cur with
  | [] => rest
  | c :: cs => (c :: cs).reverse :: rest

/-- The words of a line; `cur` is the word being read, reversed. A comma is a word of its own. -/
def lineWords : List Char → List Char → List (List Char)
  | cur, [] => flushWord cur []
  | cur, c :: cs =>
    if c = ' ' ∨ c = '\t' then flushWord cur (lineWords [] cs)
    else if c = ',' then flushWord cur ([','] :: lineWords [] cs)
    else lineWords (c :: cur) cs

/-- A line up to its comment. -/
def withoutComment (cs : List Char) : List Char := cs.takeWhile (fun c => c != ';')

/-! ## Operands -/

/-- `FRET1`..`FRET6` stand for 0..5 (30_encoding.md R66). -/
def fretName (w : List Char) : Option Nat :=
  ["FRET1".toList, "FRET2".toList, "FRET3".toList, "FRET4".toList, "FRET5".toList, "FRET6".toList].findIdx?
    (fun n => n == w)

/-- `STRUM_UP`, `STRUM_DOWN`, `START`, `SELECT`, `HERO` stand for 0..4 (30_encoding.md R66). -/
def buttonName (w : List Char) : Option Nat :=
  ["STRUM_UP".toList, "STRUM_DOWN".toList, "START".toList, "SELECT".toList, "HERO".toList].findIdx?
    (fun n => n == w)

/-- An index: a decimal number or a name, below `bound`. -/
def indexOperand (name : List Char → Option Nat) (bound : Nat) (w : List Char) : Except AsmError (BitVec 3) :=
  match (decimalNumber w).or (name w) with
  | some n => if n < bound then .ok (BitVec.ofNat 3 n) else .error .outOfRange
  | none => .error .badOperand

/-- `val`: 0 or 1. -/
def valOperand (w : List Char) : Except AsmError Bool :=
  match decimalNumber w with
  | some 0 => .ok false
  | some 1 => .ok true
  | some _ => .error .outOfRange
  | none => .error .badOperand

/-- `#n`, with n below `2 ^ bits`. -/
def immOperand (bits : Nat) (w : List Char) : Except AsmError (BitVec bits) :=
  match w with
  | '#' :: ds =>
    match number ds with
    | some n => if n < 2 ^ bits then .ok (BitVec.ofNat bits n) else .error .outOfRange
    | none => .error .badOperand
  | _ => .error .badOperand

/-! ## Lines and texts -/

/-- The instructions a line's words stand for (30_encoding.md R66, R67); none for an empty line. -/
def lineInstrs : List (List Char) → Except AsmError (List Instr)
  | [] => .ok []
  | [m] =>
    if m = "REFRESH".toList then .ok [.refresh]
    else if m = "READ_REPORT".toList then .ok [.readReport]
    else if m = "SEND_CYCLE".toList then .ok (expand .sendCycle)
    else .error .unknownForm
  | [m, a] =>
    if m = "WRWH".toList then (immOperand 16 a).map (fun v => [.wrwh v])
    else if m = "SETFRETS".toList then (immOperand 6 a).map (fun v => expand (.setFrets v))
    else if m = "SETBUTTONS".toList then (immOperand 5 a).map (fun v => expand (.setButtons v))
    else .error .unknownForm
  | [m, a, comma, b] =>
    if comma ≠ [','] then .error .unknownForm
    else if m = "SETF".toList then
      match indexOperand fretName Config.nFrets a, valOperand b with
      | .ok i, .ok v => .ok [.setf i v]
      | .error e, _ => .error e
      | .ok _, .error e => .error e
    else if m = "SETB".toList then
      match indexOperand buttonName Config.nButtons a, valOperand b with
      | .ok i, .ok v => .ok [.setb i v]
      | .error e, _ => .error e
      | .ok _, .error e => .error e
    else .error .unknownForm
  | _ => .error .unknownForm

/-- Assemble one line. -/
def assembleLine (cs : List Char) : Except AsmError (List Instr) :=
  lineInstrs (lineWords [] (withoutComment cs))

/-- The lines of a text; `cur` is the line being read, reversed. -/
def textLines : List Char → List Char → List (List Char)
  | cur, [] => [cur.reverse]
  | cur, c :: cs => if c = '\n' then cur.reverse :: textLines [] cs else textLines (c :: cur) cs

/-- The instructions of the lines of a text, in order, or the first error. -/
def assembleLines : List (List Char) → Except AsmError (List Instr)
  | [] => .ok []
  | l :: ls =>
    match assembleLine l, assembleLines ls with
    | .ok is, .ok js => .ok (is ++ js)
    | .error e, _ => .error e
    | .ok _, .error e => .error e

/-- Assemble a text to its commands. -/
def assemble (cs : List Char) : Except AsmError (List Command) :=
  (assembleLines (textLines [] cs)).map (fun is => is.map encode)

/-! ## Writing an instruction in the syntax -/

/-- A hex digit 0..F. -/
def hexChar (d : BitVec 4) : Char :=
  Char.ofNat (if d.toNat < 10 then d.toNat + 48 else d.toNat + 55)

/-- A decimal digit 0..9. -/
def decimalChar (n : Nat) : Char := Char.ofNat (n % 10 + 48)

/-- An instruction in the syntax of 30_encoding.md R66, with imm16 in hex. -/
def showInstr : Instr → List Char
  | .refresh => "REFRESH".toList
  | .readReport => "READ_REPORT".toList
  | .setf idx val => "SETF ".toList ++ [decimalChar idx.toNat, ',', ' ', decimalChar val.toNat]
  | .setb idx val => "SETB ".toList ++ [decimalChar idx.toNat, ',', ' ', decimalChar val.toNat]
  | .wrwh v =>
    "WRWH #0x".toList ++
      [hexChar (v.extractLsb' 12 4), hexChar (v.extractLsb' 8 4), hexChar (v.extractLsb' 4 4),
       hexChar (v.extractLsb' 0 4)]

end Sys2Proof.Machine
end

