-- ==== Sys2Proof/Safety.lean ====
section
/-!
DEFINITION. What statements say of states and runs: the unused bits, the invariant of the machine, the states a run can
reach, and the shape of normal operation.
-/

namespace Sys2Proof.Machine

/-- `frets[7:6]` and `buttons[7:5]` are zero (10_state.md R25). -/
abbrev Report.UnusedZero (r : Report) : Prop :=
  r.frets.extractLsb' 6 2 = 0#2 ∧ r.buttons.extractLsb' 5 3 = 0#3

/-- The same of returned bytes: `rpt[2][7:6]` and `rpt[3][7:5]` (41_encoder.md R114). -/
abbrev Image.UnusedZero (b : Image) : Prop :=
  b[2].extractLsb' 6 2 = 0#2 ∧ b[3].extractLsb' 5 3 = 0#3

/-- The invariant of the machine: legal parameters, the unused bits zero in the report and in every image returned or
offered to the transport, and the sample below 2^`ADC_BITS` (10_state.md R25, R29; 41_encoder.md R114). -/
structure State.Inv (s : State) : Prop where
  params : s.params.Wf
  report : s.report.UnusedZero
  sample : s.adcSample.toNat < 2 ^ s.params.adcBits
  returned : ∀ b ∈ s.rpt.toList, Image.UnusedZero b
  offered : ∀ a ∈ s.sent, Image.UnusedZero a.bytes

/-- The states of all runs: from the reset of any instance with legal parameters, with any reset draw, any draws to
come and either issuer, by steps, and on past a refused command (42_orchestration.md R146; 60_exceptions.md R163). -/
inductive Reachable : State → Prop where
  | reset (p : Params) (d : Half) (e : Inputs) (i : Issuer) (h : p.Wf) :
      Reachable (((State.resetWith p d).withInputs e).withIssuer i)
  | next (s t : State) (hs : Reachable s) (h : step s = .next t) : Reachable t
  | refused (s t : State) (cmd : Byte) (why : Reserved) (hs : Reachable s)
      (h : step s = .refused (.reservedCommand cmd why t)) : Reachable t

/-- Normal operation: the orchestration loop issues the commands (42_orchestration.md R147). -/
abbrev State.Normal (s : State) : Prop := s.issuer = .controller

/-- A step is safe when it answers a next state. -/
def State.StepsOn (s : State) : Prop := ∃ t, step s = .next t

/-- The state after one step of a run that goes on past refused commands (60_exceptions.md R163). -/
def stepOn (s : State) : State := stateAfter s (step s)

/-- `n` steps, up to the first refusal: the host's run of this machine. -/
def runSteps : Nat → State → Result
  | 0, s => .next s
  | n + 1, s =>
    match step s with
    | .next t => runSteps n t
    | .fault r => .fault r
    | .refused r => .refused r

end Sys2Proof.Machine
end

