-- ==== Sys2Proof/Laws/State.lean ====
section
/-!
SUPPORT. One lemma per field per update of the report and of the state.
-/

namespace Sys2Proof.Machine

variable (r : Report) (s : State)

@[simp] theorem Report.withWhammy_whammy (v : Half) : (r.withWhammy v).whammy = v := rfl
@[simp] theorem Report.withWhammy_frets (v : Half) : (r.withWhammy v).frets = r.frets := rfl
@[simp] theorem Report.withWhammy_buttons (v : Half) : (r.withWhammy v).buttons = r.buttons := rfl

@[simp] theorem Report.withFrets_whammy (v : Byte) : (r.withFrets v).whammy = r.whammy := rfl
@[simp] theorem Report.withFrets_frets (v : Byte) : (r.withFrets v).frets = v := rfl
@[simp] theorem Report.withFrets_buttons (v : Byte) : (r.withFrets v).buttons = r.buttons := rfl

@[simp] theorem Report.withButtons_whammy (v : Byte) : (r.withButtons v).whammy = r.whammy := rfl
@[simp] theorem Report.withButtons_frets (v : Byte) : (r.withButtons v).frets = r.frets := rfl
@[simp] theorem Report.withButtons_buttons (v : Byte) : (r.withButtons v).buttons = v := rfl

@[simp] theorem State.withReport_params (v : Report) : (s.withReport v).params = s.params := rfl
@[simp] theorem State.withReport_report (v : Report) : (s.withReport v).report = v := rfl
@[simp] theorem State.withReport_adcSample (v : Report) : (s.withReport v).adcSample = s.adcSample := rfl
@[simp] theorem State.withReport_phase (v : Report) : (s.withReport v).phase = s.phase := rfl
@[simp] theorem State.withReport_refusalMark (v : Report) : (s.withReport v).refusalMark = s.refusalMark := rfl
@[simp] theorem State.withReport_rpt (v : Report) : (s.withReport v).rpt = s.rpt := rfl
@[simp] theorem State.withReport_sent (v : Report) : (s.withReport v).sent = s.sent := rfl
@[simp] theorem State.withReport_issuer (v : Report) : (s.withReport v).issuer = s.issuer := rfl
@[simp] theorem State.withReport_inputs (v : Report) : (s.withReport v).inputs = s.inputs := rfl

@[simp] theorem State.withAdcSample_params (v : Half) : (s.withAdcSample v).params = s.params := rfl
@[simp] theorem State.withAdcSample_report (v : Half) : (s.withAdcSample v).report = s.report := rfl
@[simp] theorem State.withAdcSample_adcSample (v : Half) : (s.withAdcSample v).adcSample = v := rfl
@[simp] theorem State.withAdcSample_phase (v : Half) : (s.withAdcSample v).phase = s.phase := rfl
@[simp] theorem State.withAdcSample_refusalMark (v : Half) : (s.withAdcSample v).refusalMark = s.refusalMark := rfl
@[simp] theorem State.withAdcSample_rpt (v : Half) : (s.withAdcSample v).rpt = s.rpt := rfl
@[simp] theorem State.withAdcSample_sent (v : Half) : (s.withAdcSample v).sent = s.sent := rfl
@[simp] theorem State.withAdcSample_issuer (v : Half) : (s.withAdcSample v).issuer = s.issuer := rfl
@[simp] theorem State.withAdcSample_inputs (v : Half) : (s.withAdcSample v).inputs = s.inputs := rfl

@[simp] theorem State.withPhase_params (v : Phase) : (s.withPhase v).params = s.params := rfl
@[simp] theorem State.withPhase_report (v : Phase) : (s.withPhase v).report = s.report := rfl
@[simp] theorem State.withPhase_adcSample (v : Phase) : (s.withPhase v).adcSample = s.adcSample := rfl
@[simp] theorem State.withPhase_phase (v : Phase) : (s.withPhase v).phase = v := rfl
@[simp] theorem State.withPhase_refusalMark (v : Phase) : (s.withPhase v).refusalMark = s.refusalMark := rfl
@[simp] theorem State.withPhase_rpt (v : Phase) : (s.withPhase v).rpt = s.rpt := rfl
@[simp] theorem State.withPhase_sent (v : Phase) : (s.withPhase v).sent = s.sent := rfl
@[simp] theorem State.withPhase_issuer (v : Phase) : (s.withPhase v).issuer = s.issuer := rfl
@[simp] theorem State.withPhase_inputs (v : Phase) : (s.withPhase v).inputs = s.inputs := rfl

@[simp] theorem State.withRpt_params (v : Image) : (s.withRpt v).params = s.params := rfl
@[simp] theorem State.withRpt_report (v : Image) : (s.withRpt v).report = s.report := rfl
@[simp] theorem State.withRpt_adcSample (v : Image) : (s.withRpt v).adcSample = s.adcSample := rfl
@[simp] theorem State.withRpt_phase (v : Image) : (s.withRpt v).phase = s.phase := rfl
@[simp] theorem State.withRpt_refusalMark (v : Image) : (s.withRpt v).refusalMark = s.refusalMark := rfl
@[simp] theorem State.withRpt_rpt (v : Image) : (s.withRpt v).rpt = some v := rfl
@[simp] theorem State.withRpt_sent (v : Image) : (s.withRpt v).sent = s.sent := rfl
@[simp] theorem State.withRpt_issuer (v : Image) : (s.withRpt v).issuer = s.issuer := rfl
@[simp] theorem State.withRpt_inputs (v : Image) : (s.withRpt v).inputs = s.inputs := rfl

@[simp] theorem State.withSent_params (v : List SendAttempt) : (s.withSent v).params = s.params := rfl
@[simp] theorem State.withSent_report (v : List SendAttempt) : (s.withSent v).report = s.report := rfl
@[simp] theorem State.withSent_adcSample (v : List SendAttempt) : (s.withSent v).adcSample = s.adcSample := rfl
@[simp] theorem State.withSent_phase (v : List SendAttempt) : (s.withSent v).phase = s.phase := rfl
@[simp] theorem State.withSent_refusalMark (v : List SendAttempt) : (s.withSent v).refusalMark = s.refusalMark := rfl
@[simp] theorem State.withSent_rpt (v : List SendAttempt) : (s.withSent v).rpt = s.rpt := rfl
@[simp] theorem State.withSent_sent (v : List SendAttempt) : (s.withSent v).sent = v := rfl
@[simp] theorem State.withSent_issuer (v : List SendAttempt) : (s.withSent v).issuer = s.issuer := rfl
@[simp] theorem State.withSent_inputs (v : List SendAttempt) : (s.withSent v).inputs = s.inputs := rfl

@[simp] theorem State.withIssuer_params (v : Issuer) : (s.withIssuer v).params = s.params := rfl
@[simp] theorem State.withIssuer_report (v : Issuer) : (s.withIssuer v).report = s.report := rfl
@[simp] theorem State.withIssuer_adcSample (v : Issuer) : (s.withIssuer v).adcSample = s.adcSample := rfl
@[simp] theorem State.withIssuer_phase (v : Issuer) : (s.withIssuer v).phase = s.phase := rfl
@[simp] theorem State.withIssuer_refusalMark (v : Issuer) : (s.withIssuer v).refusalMark = s.refusalMark := rfl
@[simp] theorem State.withIssuer_rpt (v : Issuer) : (s.withIssuer v).rpt = s.rpt := rfl
@[simp] theorem State.withIssuer_sent (v : Issuer) : (s.withIssuer v).sent = s.sent := rfl
@[simp] theorem State.withIssuer_issuer (v : Issuer) : (s.withIssuer v).issuer = v := rfl
@[simp] theorem State.withIssuer_inputs (v : Issuer) : (s.withIssuer v).inputs = s.inputs := rfl

@[simp] theorem State.withInputs_params (v : Inputs) : (s.withInputs v).params = s.params := rfl
@[simp] theorem State.withInputs_report (v : Inputs) : (s.withInputs v).report = s.report := rfl
@[simp] theorem State.withInputs_adcSample (v : Inputs) : (s.withInputs v).adcSample = s.adcSample := rfl
@[simp] theorem State.withInputs_phase (v : Inputs) : (s.withInputs v).phase = s.phase := rfl
@[simp] theorem State.withInputs_refusalMark (v : Inputs) : (s.withInputs v).refusalMark = s.refusalMark := rfl
@[simp] theorem State.withInputs_rpt (v : Inputs) : (s.withInputs v).rpt = s.rpt := rfl
@[simp] theorem State.withInputs_sent (v : Inputs) : (s.withInputs v).sent = s.sent := rfl
@[simp] theorem State.withInputs_issuer (v : Inputs) : (s.withInputs v).issuer = s.issuer := rfl
@[simp] theorem State.withInputs_inputs (v : Inputs) : (s.withInputs v).inputs = v := rfl

@[simp] theorem State.withParams_params (v : Params) : (s.withParams v).params = v := rfl
@[simp] theorem State.withParams_report (v : Params) : (s.withParams v).report = s.report := rfl
@[simp] theorem State.withParams_adcSample (v : Params) : (s.withParams v).adcSample = s.adcSample := rfl
@[simp] theorem State.withParams_phase (v : Params) : (s.withParams v).phase = s.phase := rfl
@[simp] theorem State.withParams_refusalMark (v : Params) : (s.withParams v).refusalMark = s.refusalMark := rfl
@[simp] theorem State.withParams_rpt (v : Params) : (s.withParams v).rpt = s.rpt := rfl
@[simp] theorem State.withParams_sent (v : Params) : (s.withParams v).sent = s.sent := rfl
@[simp] theorem State.withParams_issuer (v : Params) : (s.withParams v).issuer = s.issuer := rfl
@[simp] theorem State.withParams_inputs (v : Params) : (s.withParams v).inputs = s.inputs := rfl

@[simp] theorem State.withRefused_params (v : Byte) : (s.withRefused v).params = s.params := rfl
@[simp] theorem State.withRefused_report (v : Byte) : (s.withRefused v).report = s.report := rfl
@[simp] theorem State.withRefused_adcSample (v : Byte) : (s.withRefused v).adcSample = s.adcSample := rfl
@[simp] theorem State.withRefused_phase (v : Byte) : (s.withRefused v).phase = s.phase := rfl
@[simp] theorem State.withRefused_refusalMark (v : Byte) : (s.withRefused v).refusalMark = s.refusalMark ++ [v] := rfl
@[simp] theorem State.withRefused_rpt (v : Byte) : (s.withRefused v).rpt = s.rpt := rfl
@[simp] theorem State.withRefused_sent (v : Byte) : (s.withRefused v).sent = s.sent := rfl
@[simp] theorem State.withRefused_issuer (v : Byte) : (s.withRefused v).issuer = s.issuer := rfl
@[simp] theorem State.withRefused_inputs (v : Byte) : (s.withRefused v).inputs = s.inputs := rfl

@[simp] theorem State.popAgent_params : s.popAgent.params = s.params := rfl
@[simp] theorem State.popAgent_report : s.popAgent.report = s.report := rfl
@[simp] theorem State.popAgent_adcSample : s.popAgent.adcSample = s.adcSample := rfl
@[simp] theorem State.popAgent_phase : s.popAgent.phase = s.phase := rfl
@[simp] theorem State.popAgent_refusalMark : s.popAgent.refusalMark = s.refusalMark := rfl
@[simp] theorem State.popAgent_rpt : s.popAgent.rpt = s.rpt := rfl
@[simp] theorem State.popAgent_sent : s.popAgent.sent = s.sent := rfl
@[simp] theorem State.popAgent_issuer : s.popAgent.issuer = s.issuer := rfl

@[simp] theorem State.popSample_params : s.popSample.params = s.params := rfl
@[simp] theorem State.popSample_report : s.popSample.report = s.report := rfl
@[simp] theorem State.popSample_adcSample : s.popSample.adcSample = s.adcSample := rfl
@[simp] theorem State.popSample_phase : s.popSample.phase = s.phase := rfl
@[simp] theorem State.popSample_refusalMark : s.popSample.refusalMark = s.refusalMark := rfl
@[simp] theorem State.popSample_rpt : s.popSample.rpt = s.rpt := rfl
@[simp] theorem State.popSample_sent : s.popSample.sent = s.sent := rfl
@[simp] theorem State.popSample_issuer : s.popSample.issuer = s.issuer := rfl

@[simp] theorem State.popLines_params : s.popLines.params = s.params := rfl
@[simp] theorem State.popLines_report : s.popLines.report = s.report := rfl
@[simp] theorem State.popLines_adcSample : s.popLines.adcSample = s.adcSample := rfl
@[simp] theorem State.popLines_phase : s.popLines.phase = s.phase := rfl
@[simp] theorem State.popLines_refusalMark : s.popLines.refusalMark = s.refusalMark := rfl
@[simp] theorem State.popLines_rpt : s.popLines.rpt = s.rpt := rfl
@[simp] theorem State.popLines_sent : s.popLines.sent = s.sent := rfl
@[simp] theorem State.popLines_issuer : s.popLines.issuer = s.issuer := rfl

@[simp] theorem State.popPoll_params : s.popPoll.params = s.params := rfl
@[simp] theorem State.popPoll_report : s.popPoll.report = s.report := rfl
@[simp] theorem State.popPoll_adcSample : s.popPoll.adcSample = s.adcSample := rfl
@[simp] theorem State.popPoll_phase : s.popPoll.phase = s.phase := rfl
@[simp] theorem State.popPoll_refusalMark : s.popPoll.refusalMark = s.refusalMark := rfl
@[simp] theorem State.popPoll_rpt : s.popPoll.rpt = s.rpt := rfl
@[simp] theorem State.popPoll_sent : s.popPoll.sent = s.sent := rfl
@[simp] theorem State.popPoll_issuer : s.popPoll.issuer = s.issuer := rfl

@[simp] theorem State.popSend_params : s.popSend.params = s.params := rfl
@[simp] theorem State.popSend_report : s.popSend.report = s.report := rfl
@[simp] theorem State.popSend_adcSample : s.popSend.adcSample = s.adcSample := rfl
@[simp] theorem State.popSend_phase : s.popSend.phase = s.phase := rfl
@[simp] theorem State.popSend_refusalMark : s.popSend.refusalMark = s.refusalMark := rfl
@[simp] theorem State.popSend_rpt : s.popSend.rpt = s.rpt := rfl
@[simp] theorem State.popSend_sent : s.popSend.sent = s.sent := rfl
@[simp] theorem State.popSend_issuer : s.popSend.issuer = s.issuer := rfl

@[simp] theorem State.popCommand_params : s.popCommand.params = s.params := rfl
@[simp] theorem State.popCommand_report : s.popCommand.report = s.report := rfl
@[simp] theorem State.popCommand_adcSample : s.popCommand.adcSample = s.adcSample := rfl
@[simp] theorem State.popCommand_phase : s.popCommand.phase = s.phase := rfl
@[simp] theorem State.popCommand_refusalMark : s.popCommand.refusalMark = s.refusalMark := rfl
@[simp] theorem State.popCommand_rpt : s.popCommand.rpt = s.rpt := rfl
@[simp] theorem State.popCommand_sent : s.popCommand.sent = s.sent := rfl
@[simp] theorem State.popCommand_issuer : s.popCommand.issuer = s.issuer := rfl

end Sys2Proof.Machine
end

