-- ==== Sys2Proof/Laws/PerInstr.lean ====
section
/-!
SUPPORT. The family `FitsTable`: the word of a well-formed instruction fits its own row of the opcode table.
-/

namespace Sys2Proof.Laws.FitsTable

open Sys2Proof

/-- The word of `i` fits the row of `i`'s mnemonic in spec/opcode_table.json. -/
def Statement (i : Instr) : Prop :=
  i.WellFormed → ∃ r ∈ opcodeTable, r.mnemonic = i.mnemonic ∧ r.fits (encodeWord i) = true

theorem refresh : Statement .refresh :=
  fun _ => ⟨⟨"REFRESH", 0xFF, 0x10⟩, by decide, by decide, by decide⟩

theorem readReport : Statement .readReport :=
  fun _ => ⟨⟨"READ_REPORT", 0xFF, 0x20⟩, by decide, by decide, by decide⟩

theorem setf (idx : BitVec 3) (val : Bool) : Statement (.setf idx val) :=
  fun _ => ⟨⟨"SETF", 0xF0, 0x30⟩, by decide, rfl, by revert idx val; decide⟩

theorem setb (idx : BitVec 3) (val : Bool) : Statement (.setb idx val) :=
  fun _ => ⟨⟨"SETB", 0xF0, 0x40⟩, by decide, rfl, by revert idx val; decide⟩

theorem wrwh (imm16 : Half) : Statement (.wrwh imm16) :=
  fun _ => ⟨⟨"WRWH", 0xFF, 0x50⟩, by decide, rfl,
    (by decide : OpcodeRow.fits ⟨"WRWH", 0xFF, 0x50⟩ 0x50#8 = true)⟩

end Sys2Proof.Laws.FitsTable
end

