-- ==== Sys2Proof/Certificates/Slice0/Obligations.lean ====
section
/-!
DEFINITION. The statements for the provers, in the order of spec/: reset, primitives, image, encoding, steps, commands,
frames, the controller, the transport, and the rules over all runs.
-/

open Sys2Proof Sys2Proof.Machine

/-! ## Reset -/

/-- 41_encoder.md R117: the reset value of `REPORT` is the idle instance, and its image is four zero bytes. -/
def Obligations.ResetReportIsIdle : Prop :=
  (∀ (p : Params) (d : Half),
    (State.resetWith p d).report = { whammy := 0#16, frets := 0#8, buttons := 0#8 } ∧
      (State.resetWith p d).report.image = #v[0#8, 0#8, 0#8, 0#8]) ∧
    State.reset.report.image = #v[0#8, 0#8, 0#8, 0#8]

/-- 10_state.md R33, 70_reset_and_hazards.md R180: after reset the report is zero, the phase is `Poll`, and
`ADC_SAMPLE` holds a value below 2^`ADC_BITS`, any such value for some draw; a refresh can read it. The marks and
outputs (empty) are the model's choice, logs 7, 8, 9. -/
def Obligations.ResetLeavesPollPhaseAndAnySample : Prop :=
  ∀ p : Params, p.Wf →
    (∀ d : Half,
      (State.resetWith p d).report = Report.idle ∧ (State.resetWith p d).phase = .poll ∧
        (State.resetWith p d).adcSample.toNat < 2 ^ p.adcBits ∧
        (State.resetWith p d).refusalMark = [] ∧ (State.resetWith p d).rpt = none ∧
        (State.resetWith p d).sent = [] ∧
        ∃ t, exec .refresh (State.resetWith p d) = .next t ∧
          t.report.whammy = (State.resetWith p d).adcSample) ∧
    ∀ v : Half, v.toNat < 2 ^ p.adcBits → ∃ d, (State.resetWith p d).adcSample = v

/-- The invariant of `InvariantKeptByEveryStep` holds after reset. -/
def Obligations.ResetMeetsInvariant : Prop :=
  State.reset.Inv ∧ ∀ (p : Params) (d : Half), p.Wf → (State.resetWith p d).Inv

/-- 60_exceptions.md R173, 70_reset_and_hazards.md R180: a power cycle leaves an idle report, the phase `Poll` and a
sample below 2^`ADC_BITS`, and nothing is kept of the block's state. The rest of what the first clause says of the whole
state is the model's choice, log 19: that a power cycle is an operation and no step, that the issuer, the refusal mark,
`rpt` and the record of sends start anew, and that the environment's draws to come are kept, so that a draw after it is
none made before. -/
def Obligations.PowerCycleForgetsAllState : Prop :=
  (∀ (s u : State) (d : Half), s.params = u.params → s.inputs = u.inputs → powerCycle d s = powerCycle d u) ∧
    ∀ (s : State) (d : Half),
      (powerCycle d s).report = Report.idle ∧ (powerCycle d s).phase = .poll ∧
        (powerCycle d s).params = s.params ∧ (powerCycle d s).inputs = s.inputs ∧
        (powerCycle d s).adcSample.toNat < 2 ^ s.params.adcBits

/-! ## Primitives -/

/-- 40_sampler.md R80: the formula of `set_bit`, and what it does bit by bit. -/
def Obligations.SetBitWritesOneBit : Prop :=
  ∀ (v : Byte) (i : BitVec 3) (s : Bool),
    setBit v i s = (v &&& ~~~(0x01#8 <<< i.toNat)) ||| ((BitVec.ofBool s).setWidth 8 <<< i.toNat) ∧
      (setBit v i s).getLsbD i.toNat = s ∧
      ∀ j : Nat, j ≠ i.toNat → (setBit v i s).getLsbD j = v.getLsbD j

/-- 40_sampler.md R81: the three laws of `set_bit`. -/
def Obligations.SetBitThreeLaws : Prop :=
  ∀ (v : Byte) (i : BitVec 3) (s : Bool),
    (∀ j : Nat, (setBit v i s).getLsbD j ≠ v.getLsbD j → j = i.toNat) ∧
      setBit (setBit v i s) i s = setBit v i s ∧
      (setBit v i s).extractLsb' i.toNat 1 = boolToBit s

/-! ## The report image -/

/-- 20_memory.md R45: the whole image is the only access, `READ_REPORT` performs it, and any other is refused. -/
def Obligations.OnlyWholeImageIsRead : Prop :=
  (∀ r : Report, memRead r 0 4 = .ok r.image) ∧
    (∀ (r : Report) (offset length : Nat), ¬(offset = 0 ∧ length = 4) →
      memRead r offset length = .error (.imageAccess offset length)) ∧
    ∀ s : State, ∃ (t : State) (b : Image),
      exec .readReport s = .next t ∧ memRead s.report 0 4 = .ok b ∧ t.rpt = some b

/-- The image as little-endian words: 20_memory.md section 2, which derives it from R40 and R43. -/
def Obligations.ImageAsLittleEndianWords : Prop :=
  ∀ r : Report,
    r.image.word32 = r.buttons ++ r.frets ++ r.whammy ∧
      r.image.word32.extractLsb' 24 8 = r.buttons ∧ r.image.word32.extractLsb' 16 8 = r.frets ∧
      r.image.word32.extractLsb' 0 16 = r.whammy ∧ r.image.word16 = r.whammy

/-- 41_encoder.md section 3, which derives it from R40 and R132: under the premise about the descriptor, every field it
declares is found in the report's input bits at the declared place, and the declared places fill the image; every
button usage n describes bit n - 1 of its field (10_state.md R22, R23), and usages 6 to 8 of `buttons` are never pressed
in a report with the unused bits zero (90_conflicts.md C1). -/
def Obligations.DescriptorMatchesImage : Prop :=
  ∀ p : Params, p.Wf →
    (∀ d ∈ p.descriptor.schema.fields, ∀ r : Report,
      r.image.word32.toNat / 2 ^ d.bitOffset % 2 ^ d.bitWidth = r.fieldValue d.field) ∧
      (p.descriptor.schema.fields.map FieldDecl.bitWidth).sum = p.descriptor.schema.inputBits ∧
      p.descriptor.schema.fields.map FieldDecl.field = [.whammy, .frets, .buttons] ∧
      p.descriptor.schema.fields.map (fun d => d.usage.buttonUsages.map ButtonUsage.number) =
        [[], [1, 2, 3, 4, 5, 6], [1, 2, 3, 4, 5, 6, 7, 8]] ∧
      ∀ d ∈ p.descriptor.schema.fields, ∀ u ∈ d.usage.buttonUsages, ∀ r : Report,
        r.image.word32.getLsbD (d.bitOffset + u.bit) = (r.fieldValue d.field).testBit (u.number - 1) ∧
          (d.field = .buttons → 6 ≤ u.number → r.UnusedZero →
            r.image.word32.getLsbD (d.bitOffset + u.bit) = false)

/-! ## Encoding -/

/-- Which words are legal, 25 of the 256: 30_encoding.md section 4, which derives the count from R63 and R64. -/
def Obligations.LegalWordsAreTwentyFive : Prop :=
  ∀ dat : Half,
    let legal := (List.range 256).filter
      (fun w => (decode { cmd := BitVec.ofNat 8 w, dat := dat }).isOk)
    legal = [0x10, 0x20] ++ List.range' 0x30 12 ++ List.range' 0x40 10 ++ [0x50] ∧
      legal.length = 25 ∧ 256 - legal.length = 231

/-- Each reserved word is rejected under the reason for which 30_encoding.md section 4 (R64) lists it, and no other word
is. -/
def Obligations.ReservedWordsRejectedByName : Prop :=
  ∀ c : Command,
    (decode c = .error .operation ↔ c.cmd.toNat < 0x10 ∨ 0x60 ≤ c.cmd.toNat) ∧
      (decode c = .error .lowNibble ↔
        (0x11 ≤ c.cmd.toNat ∧ c.cmd.toNat ≤ 0x1F) ∨ (0x21 ≤ c.cmd.toNat ∧ c.cmd.toNat ≤ 0x2F) ∨
          (0x51 ≤ c.cmd.toNat ∧ c.cmd.toNat ≤ 0x5F)) ∧
      (decode c = .error .fretIndex ↔ 0x3C ≤ c.cmd.toNat ∧ c.cmd.toNat ≤ 0x3F) ∧
      (decode c = .error .buttonIndex ↔ 0x4A ≤ c.cmd.toNat ∧ c.cmd.toNat ≤ 0x4F)

/-- 30_encoding.md R61, R63: one word of each command, written out from its format. -/
def Obligations.WrittenOutWordsDecode : Prop :=
  decode { cmd := 0b00010000#8, dat := 0xFFFF#16 } = .ok .refresh ∧
    decode { cmd := 0b00100000#8, dat := 0xFFFF#16 } = .ok .readReport ∧
    decode { cmd := 0b00110101#8, dat := 0xFFFF#16 } = .ok (.setf 2 true) ∧
    decode { cmd := 0b01001000#8, dat := 0xFFFF#16 } = .ok (.setb 4 false) ∧
    decode { cmd := 0b01010000#8, dat := 0x1234#16 } = .ok (.wrwh 0x1234#16) ∧
    decode { cmd := 0b00111101#8, dat := 0x0000#16 } = .error .fretIndex

/-- Every well-formed instruction, with every operand, is what the decoder reads from its word; `dat` matters to
`WRWH` alone. -/
def Obligations.DecodeOfEncodeIsInstruction : Prop :=
  ∀ i : Instr, i.WellFormed →
    decode (encode i) = .ok i ∧
      ((∀ imm16 : Half, i ≠ .wrwh imm16) → ∀ dat : Half, decode { cmd := encodeWord i, dat := dat } = .ok i)

/-- What the decoder accepts is well formed, and its encoding is the word it was read from. -/
def Obligations.EncodeOfDecodeIsWord : Prop :=
  ∀ (c : Command) (i : Instr), decode c = .ok i →
    i.WellFormed ∧ encodeWord i = c.cmd ∧ ∀ imm16 : Half, i = .wrwh imm16 → c.dat = imm16

/-- 30_encoding.md R63: a word the decoder accepts fits the opcode table's row of its mnemonic and no other row. -/
def Obligations.DecodedWordFitsOneTableRow : Prop :=
  ∀ (c : Command) (i : Instr), decode c = .ok i →
    ∀ r ∈ opcodeTable, r.fits c.cmd = true ↔ r.mnemonic = i.mnemonic

/-- 30_encoding.md R60 (D14): every command but `WRWH` ignores `dat`. -/
def Obligations.DatIgnoredButByWrwh : Prop :=
  ∀ (cmd : Byte) (dat dat' : Half) (s : State), cmd ≠ 0x50#8 →
    issue { cmd := cmd, dat := dat } s = issue { cmd := cmd, dat := dat' } s

/-- 30_encoding.md R66: an instruction written in the assembler syntax assembles to its command. The digits, spaces
and hex of the written form are the model's choice among those R66 admits, log 23. -/
def Obligations.WrittenInstructionAssembles : Prop :=
  ∀ i : Instr, i.WellFormed →
    assembleLine (showInstr i) = .ok [i] ∧ assemble (showInstr i) = .ok [encode i]

/-! ## Steps -/

/-- A step runs the decoded instruction: a harness's command, and the two commands the controller issues, around which
the step draws the turn and the command, and then changes the phase (42_orchestration.md R141, R147). -/
def Obligations.StepRunsDecodedCommand : Prop :=
  ∀ s : State, s.nextAgent = .controller →
    (∀ i : Instr, s.issuer = .harness → decode s.popAgent.nextCommand = .ok i →
      step s = exec i s.popAgent.popCommand) ∧
    (s.issuer = .controller → s.phase = .refresh →
      step s = Result.mapNext (fun t => t.withPhase .send) (exec .refresh s.popAgent)) ∧
    (s.issuer = .controller → s.phase = .send →
      step s = Result.mapNext transportSend (exec .readReport s.popAgent))

/-- Placing an instruction with `withFetchWord` makes the next step run it, in the state as it was but for the
issuer. -/
def Obligations.PlacedInstructionRunsNext : Prop :=
  ∀ (s : State) (nbits w : Nat) (i : Instr), decodeTableWord nbits w = some i →
    step (s.withFetchWord nbits w) = exec i (s.withIssuer .harness)

/-- 40_sampler.md R86: the converter's step loads the sample and touches nothing else but the draws it takes; it is
enabled, with any sample below 2^`ADC_BITS`, in every state. -/
def Obligations.ConverterStepLoadsSample : Prop :=
  (∀ s : State, s.nextAgent = .converter →
    ∃ t, step s = .next t ∧
      t = { s with adcSample := t.adcSample, inputs := t.inputs } ∧
      (s.popAgent.nextSample.toNat < 2 ^ s.params.adcBits → t.adcSample = s.popAgent.nextSample) ∧
      t.adcSample.toNat < 2 ^ s.params.adcBits) ∧
  ∀ (s : State) (v : Half) (e : Inputs), v.toNat < 2 ^ s.params.adcBits →
    step (s.withInputs { e with agents := .converter :: e.agents, samples := v :: e.samples }) =
      .next ((s.withAdcSample v).withInputs e)

/-! ## Commands -/

/-- 41_encoder.md R110: `SETF`. -/
def Obligations.SetfWritesOneFretBit : Prop :=
  ∀ (idx : BitVec 3) (val : Bool) (s : State),
    (encodeWord (.setf idx val)).toNat = 0x30 + 2 * idx.toNat + val.toNat ∧
    (idx.toNat ≤ 5 →
      ∃ t, exec (.setf idx val) s = .next t ∧
        t = { s with report := { s.report with frets := setBit s.report.frets idx val } } ∧
        (∀ j : Nat, t.report.frets.getLsbD j = if j = idx.toNat then val else s.report.frets.getLsbD j) ∧
        (s.report.frets.getLsbD idx.toNat = val → t.report = s.report)) ∧
    (5 < idx.toNat →
      exec (.setf idx val) s =
        .refused (.reservedCommand (encodeWord (.setf idx val)) .fretIndex
          { s with refusalMark := s.refusalMark ++ [encodeWord (.setf idx val)] }))

/-- 41_encoder.md R111: `SETB`. -/
def Obligations.SetbWritesOneButtonBit : Prop :=
  ∀ (idx : BitVec 3) (val : Bool) (s : State),
    (encodeWord (.setb idx val)).toNat = 0x40 + 2 * idx.toNat + val.toNat ∧
    (idx.toNat ≤ 4 →
      ∃ t, exec (.setb idx val) s = .next t ∧
        t = { s with report := { s.report with buttons := setBit s.report.buttons idx val } } ∧
        (∀ j : Nat, t.report.buttons.getLsbD j = if j = idx.toNat then val else s.report.buttons.getLsbD j) ∧
        (s.report.buttons.getLsbD idx.toNat = val → t.report = s.report)) ∧
    (4 < idx.toNat →
      exec (.setb idx val) s =
        .refused (.reservedCommand (encodeWord (.setb idx val)) .buttonIndex
          { s with refusalMark := s.refusalMark ++ [encodeWord (.setb idx val)] }))

/-- 41_encoder.md R112: `WRWH`, through its word and operand, and the image bytes it leaves. -/
def Obligations.WrwhWritesWhammyVerbatim : Prop :=
  ∀ (imm16 : Half) (s : State),
    encode (.wrwh imm16) = { cmd := 0x50#8, dat := imm16 } ∧
    ∃ t, exec (.wrwh imm16) s = .next t ∧ issue { cmd := 0x50#8, dat := imm16 } s = .next t ∧
      t = { s with report := { s.report with whammy := imm16 } } ∧
      t.report.image = #v[imm16.extractLsb' 0 8, imm16.extractLsb' 8 8, s.report.frets, s.report.buttons]

/-- 41_encoder.md R114: `READ_REPORT`. -/
def Obligations.ReadReportReturnsImage : Prop :=
  ∀ s : State,
    encodeWord .readReport = 0x20#8 ∧
    ∃ (t : State) (b : Image), exec .readReport s = .next t ∧ t = { s with rpt := some b } ∧
      b[0] = s.report.whammy.extractLsb' 0 8 ∧ b[1] = s.report.whammy.extractLsb' 8 8 ∧
      b[2] = s.report.frets ∧ b[3] = s.report.buttons ∧ memRead s.report 0 4 = .ok b ∧
      exec .readReport t = .next t ∧
      (s.Inv → b[2].extractLsb' 6 2 = 0#2 ∧ b[3].extractLsb' 5 3 = 0#3)

/-- 40_sampler.md R90: `REFRESH`, its loops written out line by line, with line Lk the result number k of the draw
(10_state.md R24) and its bit 1 exactly when that result is `High` (40_sampler.md R83). -/
def Obligations.RefreshSamplesEveryInput : Prop :=
  ∀ s : State,
    let on := fun k : Fin 11 => s.nextLines[k] == LineRead.high
    encodeWord .refresh = 0x10#8 ∧
    ∃ t, exec .refresh s = .next t ∧ t = { s.popLines with report := t.report } ∧
      t.report.frets =
        setBit (setBit (setBit (setBit (setBit (setBit s.report.frets 0 (on 0)) 1 (on 1)) 2 (on 2)) 3
          (on 3)) 4 (on 4)) 5 (on 5) ∧
      t.report.buttons =
        setBit (setBit (setBit (setBit (setBit s.report.buttons 0 (on 6)) 1 (on 7)) 2 (on 8)) 3 (on 9)) 4 (on 10) ∧
      t.report.whammy = s.adcSample

/-- From a state with the unused bits zero, the report after `REFRESH` is this function of the line results and the
sample alone: 40_sampler.md section 4, which derives it from R80, R90 and R25. The bit of line Lk is written out: 1
exactly when result number k of the draw is `High` (R83), in `frets` bit k or `buttons` bit k - 6 (10_state.md R24). -/
def Obligations.RefreshIsFunctionOfInputs : Prop :=
  ∀ s : State, s.report.UnusedZero →
    let bit := fun k : Fin 11 => if s.nextLines[k] = .high then 1 else 0
    ∃ t, exec .refresh s = .next t ∧
      t.report.frets.toNat =
        (bit 0 <<< 0) + (bit 1 <<< 1) + (bit 2 <<< 2) + (bit 3 <<< 3) + (bit 4 <<< 4) + (bit 5 <<< 5) ∧
      t.report.buttons.toNat =
        (bit 6 <<< 0) + (bit 7 <<< 1) + (bit 8 <<< 2) + (bit 9 <<< 3) + (bit 10 <<< 4) ∧
      (∀ k : Fin 11, k.val ≤ 5 → t.report.frets.getLsbD k = decide (bit k = 1)) ∧
      (∀ k : Fin 11, 6 ≤ k.val → t.report.buttons.getLsbD (k - 6) = decide (bit k = 1)) ∧
      t.report.whammy = s.adcSample ∧ t.report.UnusedZero

/-- Two refreshes with the same line results and the same sample leave identical reports, whatever stands in `REPORT`
before each, in states that meet the invariant: 40_sampler.md section 4, which derives it from R90. -/
def Obligations.RefreshTwiceGivesSameReport : Prop :=
  ∀ s u : State, s.Inv → u.Inv → u.nextLines = s.nextLines → u.adcSample = s.adcSample →
    ∃ t t', exec .refresh s = .next t ∧ exec .refresh u = .next t' ∧ t'.report = t.report

/-- 40_sampler.md R84: a failed read of line Lk acts as a low one on its own bit, and on nothing else; the other bits
are as with any other result of that read. -/
def Obligations.FailedLineReadsAsReleased : Prop :=
  ∀ (s : State) (l : Lines) (q : List Lines) (k : Fin 11) (x : LineRead),
    let scripted := fun m : Lines => s.withInputs { s.inputs with lines := m :: q }
    ∃ t u w, exec .refresh (scripted (l.set k .fail)) = .next t ∧
      exec .refresh (scripted (l.set k .low)) = .next u ∧
      exec .refresh (scripted (l.set k x)) = .next w ∧ t = u ∧
      t.report.whammy = w.report.whammy ∧
      (k.val ≤ 5 →
        t.report.frets = setBit w.report.frets (BitVec.ofNat 3 k) false ∧ t.report.buttons = w.report.buttons) ∧
      (6 ≤ k.val →
        t.report.buttons = setBit w.report.buttons (BitVec.ofNat 3 (k - 6)) false ∧
          t.report.frets = w.report.frets)

/-- 60_exceptions.md R161, R165: every command has one outcome tag; `REFRESH` completes `OK` whatever lines fail, and
`LINE_FAIL(k)` is there exactly where result number k of the draw is a failure (10_state.md R24). -/
def Obligations.EveryCommandHasOneTag : Prop :=
  (∀ (c : Command) (s : State),
    commandTag (issue c s) = some .ok ∨ commandTag (issue c s) = some (.refusedReserved c.cmd)) ∧
    (∀ s : State, commandTag (exec .refresh s) = some .ok) ∧
    ∀ (l : Lines) (k : Fin 11),
      Tag.lineFail (#v[Line.fret1, .fret2, .fret3, .fret4, .fret5, .fret6, .strumUp, .strumDown, .start, .select,
        .hero][k]) ∈ lineFailTags l ↔ l[k] = .fail

/-! ## Frames -/

/-- What no command changes: the parameters, `ADC_SAMPLE`, the phase, the mark, the sends and the issuer; `rpt` but by
`READ_REPORT`; the draws but by `REFRESH` (40_sampler.md R95; 41_encoder.md R110 to R114). -/
def Obligations.CommandsLeaveOtherStateAlone : Prop :=
  ∀ (i : Instr) (s t : State), exec i s = .next t →
    t.params = s.params ∧ t.adcSample = s.adcSample ∧ t.phase = s.phase ∧ t.refusalMark = s.refusalMark ∧
      t.sent = s.sent ∧ t.issuer = s.issuer ∧ (i ≠ .readReport → t.rpt = s.rpt) ∧
      (i ≠ .refresh → t.inputs = s.inputs) ∧ (i = .readReport → t.report = s.report)

/-- The writers of each field of the report: 10_state.md section 5, which derives the table from R21, R22 and R23. -/
def Obligations.EachFieldHasItsWriters : Prop :=
  ∀ (i : Instr) (s t : State), exec i s = .next t →
    (t.report.whammy ≠ s.report.whammy → i = .refresh ∨ ∃ v, i = .wrwh v) ∧
    (t.report.frets ≠ s.report.frets → i = .refresh ∨ ∃ idx val, i = .setf idx val) ∧
    (t.report.buttons ≠ s.report.buttons → i = .refresh ∨ ∃ idx val, i = .setb idx val) ∧
    t.report.frets.extractLsb' 6 2 = s.report.frets.extractLsb' 6 2 ∧
    t.report.buttons.extractLsb' 5 3 = s.report.buttons.extractLsb' 5 3

/-- The bytes of the image outside the written field read as before: offset 2 for `SETF`, 3 for `SETB`, 0 and 1 for
`WRWH`, none for `READ_REPORT` (20_memory.md R40). -/
def Obligations.ImageBytesOutsideFieldKept : Prop :=
  ∀ (s t : State) (k : Nat) (hk : k < 4),
    (∀ idx val, exec (.setf idx val) s = .next t → k ≠ 2 → t.report.image[k] = s.report.image[k]) ∧
    (∀ idx val, exec (.setb idx val) s = .next t → k ≠ 3 → t.report.image[k] = s.report.image[k]) ∧
    (∀ v, exec (.wrwh v) s = .next t → 2 ≤ k → t.report.image[k] = s.report.image[k]) ∧
    (exec .readReport s = .next t → t.report.image[k] = s.report.image[k])

/-- Field independence of the ports, for sequences of commands: 41_encoder.md section 1, which derives it from R110,
R111 and R112. -/
def Obligations.PortSequencesAreIndependent : Prop :=
  (∀ (ws : List (BitVec 3 × Bool)) (s : State), (∀ w ∈ ws, w.1.toNat ≤ 4) →
    ∃ t, execAll (ws.map (fun w => .setb w.1 w.2)) s = .next t ∧
      t.report.whammy = s.report.whammy ∧ t.report.frets = s.report.frets ∧
      ∀ j : Nat, (∀ w ∈ ws, w.1.toNat ≠ j) → t.report.buttons.getLsbD j = s.report.buttons.getLsbD j) ∧
  (∀ (ws : List (BitVec 3 × Bool)) (s : State), (∀ w ∈ ws, w.1.toNat ≤ 5) →
    ∃ t, execAll (ws.map (fun w => .setf w.1 w.2)) s = .next t ∧
      t.report.whammy = s.report.whammy ∧ t.report.buttons = s.report.buttons ∧
      ∀ j : Nat, (∀ w ∈ ws, w.1.toNat ≠ j) → t.report.frets.getLsbD j = s.report.frets.getLsbD j) ∧
  ∀ (v : Half) (s : State), ∃ t, exec (.wrwh v) s = .next t ∧
    t.report.frets = s.report.frets ∧ t.report.buttons = s.report.buttons

/-- The fret bits written are the fret bits read back: 41_encoder.md section 1, which derives it from R110. -/
def Obligations.FretBitsRoundTrip : Prop :=
  ∀ (b : Fin 6 → Bool) (s : State), s.report.UnusedZero →
    ∃ t, execAll [.setf 0 (b 0), .setf 1 (b 1), .setf 2 (b 2), .setf 3 (b 3), .setf 4 (b 4), .setf 5 (b 5)] s =
        .next t ∧
      (∀ i : Fin 6, t.report.frets.getLsbD i = b i) ∧ t.report.frets.extractLsb' 6 2 = 0#2

/-- What the pseudo-instructions stand for and what they leave: 30_encoding.md section 5, which derives the fields from
R110 and R111; `SEND_CYCLE` leaves the refreshed report and returns its image (R90, R114). -/
def Obligations.PseudoInstructionsSetWholeField : Prop :=
  (∀ (m : BitVec 6) (s : State), s.report.UnusedZero →
    expand (.setFrets m) = (List.finRange 6).map (fun i => .setf (BitVec.ofNat 3 i) (m.getLsbD i)) ∧
    ∃ t, execAll (expand (.setFrets m)) s = .next t ∧ t.report.frets = m.setWidth 8) ∧
  (∀ (m : BitVec 5) (s : State), s.report.UnusedZero →
    expand (.setButtons m) = (List.finRange 5).map (fun j => .setb (BitVec.ofNat 3 j) (m.getLsbD j)) ∧
    ∃ t, execAll (expand (.setButtons m)) s = .next t ∧ t.report.buttons = m.setWidth 8) ∧
  ∀ s : State, expand .sendCycle = [.refresh, .readReport] ∧
    ∃ t u, exec .refresh s = .next u ∧ execAll (expand .sendCycle) s = .next t ∧ t = u.withRpt u.report.image

/-- 41_encoder.md R115: returned bytes are a copy: no later command but another `READ_REPORT` changes them, and no step
changes what was handed to the transport. -/
def Obligations.ReturnedBytesAreCopy : Prop :=
  (∀ (is : List Instr) (s t u : State), exec .readReport s = .next t → (∀ i ∈ is, i ≠ .readReport) →
    execAll is t = .next u → u.rpt = some s.report.image) ∧
  ∀ s t : State, step s = .next t → s.sent <+: t.sent

/-- 10_state.md R34: a command neither reads nor changes a parameter: with other parameters it does the same. -/
def Obligations.ParametersNeitherReadNorChanged : Prop :=
  ∀ (c : Command) (s : State) (p : Params),
    (∃ t, issue c s = .next t ∧ t.params = s.params ∧ issue c (s.withParams p) = .next (t.withParams p)) ∨
    ∃ why t, issue c s = .refused (.reservedCommand c.cmd why t) ∧ t.params = s.params ∧
      issue c (s.withParams p) = .refused (.reservedCommand c.cmd why (t.withParams p))

/-! ## Refusal -/

/-- 60_exceptions.md R163: issuing a reserved word is refused; no state changes but the mark, which names the word, no
bytes are returned, and the mark stays for the rest of the run. -/
def Obligations.ReservedWordIsRefused : Prop :=
  ∀ (s : State) (why : Reserved), s.nextAgent = .controller → s.issuer = .harness →
    decode s.popAgent.nextCommand = .error why →
    ∃ t, step s = .refused (.reservedCommand s.popAgent.nextCommand.cmd why t) ∧
      t.refusalMark = s.refusalMark ++ [s.popAgent.nextCommand.cmd] ∧
      t = { s with refusalMark := t.refusalMark, inputs := s.popAgent.popCommand.inputs } ∧
      ∀ n : Nat, s.popAgent.nextCommand.cmd ∈ (stepOn^[n] t).refusalMark

/-- Whatever steps follow, in whatever state, no word leaves the refusal mark (60_exceptions.md section 1). -/
def Obligations.RefusalMarkStays : Prop :=
  ∀ (s : State) (n : Nat), s.refusalMark <+: (stepOn^[n] s).refusalMark

/-- The machine stops only on a reserved word that a harness issues; it never faults (60_exceptions.md R160, R163). -/
def Obligations.OnlyReservedWordsStopAStep : Prop :=
  ∀ s : State, s.StepsOn ∨
    (s.issuer = .harness ∧ s.nextAgent = .controller ∧
      ∃ why t, decode s.popAgent.nextCommand = .error why ∧
        step s = .refused (.reservedCommand s.popAgent.nextCommand.cmd why t))

/-! ## The controller and the transport -/

/-- 42_orchestration.md R141: the three steps of the controller. -/
def Obligations.ControllerLoopSteps : Prop :=
  ∀ s : State, s.nextAgent = .controller → s.Normal →
    (s.phase = .poll →
      step s = .next { s.popAgent.popPoll with phase := if s.popAgent.nextPoll then .refresh else .poll }) ∧
    (s.phase = .refresh →
      step s = .next { s.popAgent.popLines with
        report := refreshReport s.popAgent.nextLines s.adcSample s.report, phase := .send }) ∧
    (s.phase = .send →
      step s = .next { s.popAgent.popSend with
        rpt := some s.report.image,
        sent := s.sent ++ [{ bytes := s.report.image, result := s.popAgent.nextSend }],
        phase := .poll })

/-- 42_orchestration.md section 1, which derives it from R141 and R86: whatever the converter does between a refresh
and its read, the bytes offered to the transport are exactly the report the refresh produced. -/
def Obligations.SentBytesAreTheRefreshedReport : Prop :=
  ∀ (s : State) (n : Nat) (q : List Agent), s.Normal → s.phase = .refresh →
    s.inputs.agents = .controller :: (List.replicate n .converter ++ .controller :: q) →
    ∃ (t : State) (r : SendResult), runSteps (n + 2) s = .next t ∧
      t.report = refreshReport s.nextLines s.adcSample s.report ∧
      t.sent = s.sent ++ [{ bytes := t.report.image, result := r }] ∧ t.phase = .poll

/-- 42_orchestration.md R145: a busy send differs from an accepted one in the recorded answer alone: no retry, nothing
queued, the report kept, the next step a poll. -/
def Obligations.BusyFrameIsDropped : Prop :=
  ∀ (s : State) (q : List SendResult), s.Normal → s.phase = .send → s.nextAgent = .controller →
    ∃ t u, step (s.withInputs { s.inputs with sends := .busy :: q }) = .next t ∧
      step (s.withInputs { s.inputs with sends := .accepted :: q }) = .next u ∧
      t = u.withSent t.sent ∧ t.report = s.report ∧ t.phase = .poll ∧
      t.sent = s.sent ++ [{ bytes := s.report.image, result := .busy }] ∧
      u.sent = s.sent ++ [{ bytes := s.report.image, result := .accepted }]

/-- 42_orchestration.md R143: while every poll returns false, nothing is refreshed and nothing is sent, however the
converter's steps come in between; no error state arises. -/
def Obligations.NoPollNoRefreshNoSend : Prop :=
  ∀ (turns rest : List Agent) (more : List Bool) (k : Nat) (s : State), s.Normal → s.phase = .poll →
    s.inputs.agents = turns ++ rest → s.inputs.polls = List.replicate k false ++ more → turns.length ≤ k →
    ∃ t, runSteps turns.length s = .next t ∧ t.phase = .poll ∧
      t.report = s.report ∧ t.sent = s.sent ∧ t.rpt = s.rpt ∧ t.refusalMark = s.refusalMark

/-- 10_state.md R27, 42_orchestration.md R147: in normal operation only the controller's `Refresh` step writes the
report. -/
def Obligations.OnlyRefreshPhaseWritesReport : Prop :=
  ∀ s t : State, s.Normal → step s = .next t → t.report ≠ s.report →
    s.phase = .refresh ∧ s.nextAgent = .controller ∧ t.phase = .send

/-- 10_state.md R29: only the converter writes `ADC_SAMPLE`. -/
def Obligations.OnlyConverterWritesSample : Prop :=
  ∀ s : State, s.nextAgent = .controller → (stepOn s).adcSample = s.adcSample

/-- 42_orchestration.md R146: in normal operation a run never ends, from any state. -/
def Obligations.NormalOperationNeverEnds : Prop :=
  ∀ (s : State) (n : Nat), s.Normal → ∃ t, runSteps n s = .next t ∧ t.Normal

/-! ## Rules over every state -/

/-- Every step, a refused one included, keeps the invariant. -/
def Obligations.InvariantKeptByEveryStep : Prop :=
  ∀ s : State, s.Inv →
    (∀ t, step s = .next t → t.Inv) ∧
      ∀ cmd why t, step s = .refused (.reservedCommand cmd why t) → t.Inv

/-- The unused bits are zero in every state a run can reach: 10_state.md section 2, which derives it from R33, R110,
R111 and R90. -/
def Obligations.UnusedBitsZeroInEveryReachableState : Prop :=
  ∀ s : State, Reachable s → s.report.frets.extractLsb' 6 2 = 0#2 ∧ s.report.buttons.extractLsb' 5 3 = 0#3

/-- 10_state.md R29, R34: in every reachable state the sample is below 2^`ADC_BITS`, and no step changes the
parameters. -/
def Obligations.SampleBelowAdcBitsAndParametersConstant : Prop :=
  (∀ s : State, Reachable s → s.adcSample.toNat < 2 ^ s.params.adcBits) ∧
    ∀ s : State, (stepOn s).params = s.params
end

