-- ==== Sys2Proof/Laws/Ops.lean ====
section
/-!
SUPPORT. One lemma per shared operation, saying what it can do: the bit-setter, the packing of lines, the image read,
the converter's value, the draws and the mapping of an outcome.
-/

namespace Sys2Proof.Machine

/-! ## The bit-setter and the packing of lines -/

/-- `set_bit` bit by bit. -/
theorem setBit_getLsbD (v : Byte) (i : BitVec 3) (b : Bool) (j : Nat) :
    (setBit v i b).getLsbD j = if j = i.toNat then b else v.getLsbD j := by
  have hi := i.isLt
  by_cases hj : j < 8
  · rcases Nat.lt_trichotomy j i.toNat with h | h | h
    · simp [setBit, boolToBit, hj, h, Nat.ne_of_lt h]
    · simp [setBit, boolToBit, h]
      omega
    · have h1 : ¬ j < i.toNat := by omega
      have h2 : j - i.toNat ≠ 0 := by omega
      simp [setBit, boolToBit, hj, h1, h2, Nat.ne_of_gt h]
  · have hne : j ≠ i.toNat := by omega
    simp [hne, BitVec.getLsbD_of_ge _ _ (Nat.le_of_not_lt hj)]

@[simp] theorem packLines_nil (l : Lines) (v : Byte) : packLines [] l v = v := rfl

@[simp] theorem packLines_cons (k : Line) (ks : List Line) (l : Lines) (v : Byte) :
    packLines (k :: ks) l v = packLines ks l (setBit v (lineDest k) (lineBit (readLine l k) == 1#1)) := rfl

/-! ## The converter's value -/

/-- The converter's value is the draw's low `ADC_BITS` bits. -/
theorem convertedSample_toNat (n : Nat) (v : Half) (h : n ≤ 16) :
    (convertedSample n v).toNat = v.toNat % 2 ^ n := by
  have hp : v.toNat % 2 ^ n < 2 ^ 16 :=
    Nat.lt_of_lt_of_le (Nat.mod_lt _ (Nat.two_pow_pos n)) (Nat.pow_le_pow_right (by decide) h)
  simpa [convertedSample] using Nat.mod_eq_of_lt hp

/-- A draw below 2^`ADC_BITS` is kept as it is. -/
theorem convertedSample_of_lt (n : Nat) (v : Half) (h : v.toNat < 2 ^ n) : convertedSample n v = v := by
  apply BitVec.eq_of_toNat_eq
  simp [convertedSample, Nat.mod_eq_of_lt h, Nat.mod_eq_of_lt v.isLt]

/-- The converter's value is below 2^`ADC_BITS`. -/
theorem convertedSample_lt (n : Nat) (v : Half) : (convertedSample n v).toNat < 2 ^ n := by
  simp only [convertedSample, BitVec.toNat_setWidth]
  exact Nat.lt_of_le_of_lt (Nat.mod_le _ _) (Nat.mod_lt _ (Nat.two_pow_pos n))

/-! ## The image -/

/-- The one access the block has. -/
@[simp] theorem memRead_image (r : Report) : memRead r 0 Config.reportBytes = .ok r.image := rfl

/-! ## Draws -/

@[simp] theorem drawnAfter_nil {α : Type} (n : Nat) : drawnAfter ([] : List α) n = n + 1 := rfl

@[simp] theorem drawnAfter_cons {α : Type} (a : α) (q : List α) (n : Nat) : drawnAfter (a :: q) n = n := rfl

theorem nextAgent_of_cons (s : State) (a : Agent) (q : List Agent) (h : s.inputs.agents = a :: q) :
    s.nextAgent = a ∧ s.popAgent = s.withInputs { s.inputs with agents := q } := by
  simp [State.nextAgent, State.popAgent, h]

/-! ## Outcomes -/

@[simp] theorem mapNext_next (f : State → State) (s : State) :
    Result.mapNext f (.next s) = .next (f s) := rfl

@[simp] theorem mapNext_refused (f : State → State) (r : Refusal) :
    Result.mapNext f (.refused r) = .refused r := rfl

end Sys2Proof.Machine
end

