-- ==== Sys2Proof/Laws/Step.lean ====
section
/-!
SUPPORT. What a command, an issue and a step can do, said once; proofs cite these and do not unfold the meanings.
-/

namespace Sys2Proof.Machine

/-! ## Commands -/

/-- Everything a command that completes can have done. -/
theorem exec_next_cases {i : Instr} {s t : State} (h : exec i s = .next t) :
    (i = .refresh ∧ t = s.popLines.withReport (refreshReport s.nextLines s.adcSample s.report)) ∨
    (i = .readReport ∧ t = s.withRpt s.report.image) ∨
    (∃ idx val, i = .setf idx val ∧ idx.toNat < 6 ∧
      t = s.withReport (s.report.withFrets (setBit s.report.frets idx val))) ∨
    (∃ idx val, i = .setb idx val ∧ idx.toNat < 5 ∧
      t = s.withReport (s.report.withButtons (setBit s.report.buttons idx val))) ∨
    ∃ v, i = .wrwh v ∧ t = s.withReport (s.report.withWhammy v) := by
  cases i with
  | refresh => cases h; exact .inl ⟨rfl, rfl⟩
  | readReport => cases h; exact .inr (.inl ⟨rfl, rfl⟩)
  | setf idx val =>
    simp only [exec, execSetf] at h
    split at h
    · cases h; exact .inr (.inr (.inl ⟨idx, val, rfl, ‹_›, rfl⟩))
    · cases h
  | setb idx val =>
    simp only [exec, execSetb] at h
    split at h
    · cases h; exact .inr (.inr (.inr (.inl ⟨idx, val, rfl, ‹_›, rfl⟩)))
    · cases h
  | wrwh v => cases h; exact .inr (.inr (.inr (.inr ⟨v, rfl, rfl⟩)))

/-- A well-formed instruction completes. -/
theorem exec_of_wellFormed {i : Instr} (h : i.WellFormed) (s : State) : ∃ t, exec i s = .next t := by
  cases i with
  | refresh => exact ⟨_, rfl⟩
  | readReport => exact ⟨_, rfl⟩
  | setf idx val => exact ⟨_, if_pos h⟩
  | setb idx val => exact ⟨_, if_pos h⟩
  | wrwh v => exact ⟨_, rfl⟩

/-- The decoder accepts well-formed instructions only. -/
theorem wellFormed_of_decode {c : Command} {i : Instr} (h : decode c = .ok i) : i.WellFormed := by
  unfold decode at h
  split at h <;> (try split at h) <;> cases h <;> trivial

/-- An issued command completes as its instruction, or is refused with the mark alone changed. -/
theorem issue_cases (c : Command) (s : State) :
    (∃ i t, decode c = .ok i ∧ i.WellFormed ∧ issue c s = exec i s ∧ exec i s = .next t) ∨
    ∃ why, decode c = .error why ∧ issue c s = .refused (.reservedCommand c.cmd why (s.withRefused c.cmd)) := by
  unfold issue
  cases h : decode c with
  | ok i =>
    obtain ⟨t, ht⟩ := exec_of_wellFormed (wellFormed_of_decode h) s
    exact .inl ⟨i, t, rfl, wellFormed_of_decode h, rfl, ht⟩
  | error why => exact .inr ⟨why, rfl, rfl⟩

/-! ## Steps -/

/-- The controller's step in each phase. -/
theorem controllerStep_poll {s : State} (h : s.phase = .poll) :
    controllerStep s = .next (s.popPoll.withPhase (if s.nextPoll then .refresh else .poll)) := by
  simp [controllerStep, h]

theorem controllerStep_refresh {s : State} (h : s.phase = .refresh) :
    controllerStep s =
      .next ((s.popLines.withReport (refreshReport s.nextLines s.adcSample s.report)).withPhase .send) := by
  simp only [controllerStep, h]
  rfl

theorem controllerStep_send {s : State} (h : s.phase = .send) :
    controllerStep s = .next (transportSend (s.withRpt s.report.image)) := by
  simp only [controllerStep, h]
  rfl

/-- Who acts in a step. -/
theorem step_converter {s : State} (h : s.nextAgent = .converter) : step s = converterStep s.popAgent := by
  simp [step, agentStep, h]

theorem step_controller {s : State} (h : s.nextAgent = .controller) (hi : s.issuer = .controller) :
    step s = controllerStep s.popAgent := by
  simp [step, agentStep, issuerStep, h, hi]

theorem step_harness {s : State} (h : s.nextAgent = .controller) (hi : s.issuer = .harness) :
    step s = issue s.popAgent.nextCommand s.popAgent.popCommand := by
  simp [step, agentStep, issuerStep, harnessStep, h, hi]

/-! ## Runs -/

@[simp] theorem runSteps_zero (s : State) : runSteps 0 s = .next s := rfl

/-- A run goes on after a step that answers a next state. -/
theorem runSteps_succ_of_next {s t : State} (n : Nat) (h : step s = .next t) :
    runSteps (n + 1) s = runSteps n t := by
  rw [runSteps, h]

/-- One step of a host machine's run, by its outcome. -/
theorem coreRun_of_next (M : Host.Core) (n : Nat) {s t : M.State} (h : M.step s = .next t) :
    M.run (n + 1) s = M.run n t := by
  rw [Host.Core.run, h]

theorem coreRun_of_refused (M : Host.Core) (n : Nat) {s : M.State} {r : M.Refusal}
    (h : M.step s = .refused r) : M.run (n + 1) s = .refused r := by
  rw [Host.Core.run, h]

/-- `runSteps` is the host's run of the machine. -/
theorem core_run_eq_runSteps (n : Nat) (s : State) : Host.Core.run Sys2Proof.core n s = runSteps n s := by
  induction n generalizing s with
  | zero => rfl
  | succ n ih =>
    rw [runSteps]
    cases h : step s with
    | next t => exact (coreRun_of_next Sys2Proof.core n h).trans (ih t)
    | fault r => cases r
    | refused r => exact coreRun_of_refused Sys2Proof.core n h

end Sys2Proof.Machine
end

