-- ==== Sys2Proof/Tests/Slice0.lean ====
section
/-!
SUPPORT. The model's own tests. Expected results are written out from the spec: the vectors of spec/95_test_vectors.md
by their ids, and words from the formats of spec/30_encoding.md. The witnesses at the end meet the hypotheses of the
statements.
-/

namespace Sys2Proof.Tests

open Sys2Proof Sys2Proof.Machine

/-! ## A small state -/

/-- Parameters of a 12-bit converter. -/
def testParams : Params where
  adcBits := 12
  adcChannel := 0
  pinMap := Vector.replicate 11 0
  usbVid := 0
  usbPid := 0
  descriptor := { bytes := [], schema := Config.declaredSchema }

/-- Every line `Low` but those of `hi`, which are `High`, and those of `bad`, which are `Fail`. -/
def linesOf (hi bad : List Line) : Lines :=
  let r := fun k : Line => if k ∈ bad then LineRead.fail else if k ∈ hi then LineRead.high else LineRead.low
  #v[r .fret1, r .fret2, r .fret3, r .fret4, r .fret5, r .fret6, r .strumUp, r .strumDown, r .start, r .select,
     r .hero]

/-- A state with report `{w, f, b}` and sample `a`, in phase `p`, whose next draws are given. -/
def st (w : Half) (f b : Byte) (a : Half) (p : Phase) (i : Issuer) (e : Inputs) : State where
  params := testParams
  report := { whammy := w, frets := f, buttons := b }
  adcSample := a
  phase := p
  refusalMark := []
  rpt := none
  sent := []
  issuer := i
  inputs := e

/-- A state for one command whose line draw is `l`. -/
def atCommand (w : Half) (f b : Byte) (a : Half) (l : Lines) : State :=
  st w f b a .poll .harness { Inputs.free with lines := [l] }

def idleLines : Lines := linesOf [] []

/-- The report after an outcome, none when it stops. -/
def reportAfter : Result → Option Report
  | .next t => some t.report
  | .fault _ => none
  | .refused _ => none

/-- The returned bytes after an outcome, none when it stops or nothing was returned. -/
def rptAfter : Result → Option Image
  | .next t => t.rpt
  | .fault _ => none
  | .refused _ => none

/-! ## Well-formedness: the checks refuse what they should (30_encoding.md R64) -/

theorem test_setf_idx6_ill_formed : ¬(Instr.setf 6 true).WellFormed := by decide

theorem test_setf_idx7_ill_formed : ¬(Instr.setf 7 false).WellFormed := by decide

theorem test_setb_idx5_ill_formed : ¬(Instr.setb 5 false).WellFormed := by decide

theorem test_params_with_17_bits_ill_formed : ¬({ testParams with adcBits := 17 } : Params).Wf := by decide

theorem test_descriptor_out_of_order_disagrees :
    ¬({ Config.declaredSchema with fields := Config.declaredSchema.fields.reverse } : Schema).Agrees := by decide

/-- The six fret usages at bits 2..7 of the byte are not where the record has them (41_encoder.md R133). -/
theorem test_shifted_fret_usages_disagree :
    ¬({ Config.declaredSchema with
        fields := Config.declaredSchema.fields.set 1
          { field := .frets, bitOffset := 16, bitWidth := 8,
            usage := .buttonPage [⟨1, 2⟩, ⟨2, 3⟩, ⟨3, 4⟩, ⟨4, 5⟩, ⟨5, 6⟩, ⟨6, 7⟩] } } : Schema).Agrees := by decide

/-! ## Decoding: words written out from the formats (30_encoding.md R61, R63) -/

theorem test_decode_refresh : decode { cmd := 0b00010000#8, dat := 7#16 } = .ok .refresh := by decide

theorem test_decode_read_report : decode { cmd := 0b00100000#8, dat := 7#16 } = .ok .readReport := by decide

/-- `SETF 2, 1` is 0x35 (41_encoder.md R110). -/
theorem test_decode_setf : decode { cmd := 0b00110101#8, dat := 7#16 } = .ok (.setf 2 true) := by decide

/-- `SETB 4, 1` is 0x49 (41_encoder.md R111). -/
theorem test_decode_setb : decode { cmd := 0b01001001#8, dat := 7#16 } = .ok (.setb 4 true) := by decide

theorem test_decode_wrwh : decode { cmd := 0b01010000#8, dat := 0x1234#16 } = .ok (.wrwh 0x1234#16) := by decide

/-- V-DER-X1 to V-DER-X16, with their reasons. -/
theorem test_decode_reserved :
    (∀ c ∈ [0x00#8, 0x0F#8, 0x60#8, 0x7E#8, 0x80#8, 0xFF#8], decode ⟨c, 0#16⟩ = .error .operation) ∧
    (∀ c ∈ [0x11#8, 0x1F#8, 0x21#8, 0x2F#8, 0x51#8, 0x5F#8], decode ⟨c, 0#16⟩ = .error .lowNibble) ∧
    (∀ c ∈ [0x3C#8, 0x3F#8], decode ⟨c, 0#16⟩ = .error .fretIndex) ∧
    ∀ c ∈ [0x4A#8, 0x4F#8], decode ⟨c, 0#16⟩ = .error .buttonIndex := by decide

/-- Bits 7:0 are the word and bits 23:8 the operand. -/
theorem test_decode_table_word : decodeTableWord 24 0x123450 = some (.wrwh 0x1234#16) := by decide

/-- The first word of V-DER-X17's last row, with the bits above the word 0. -/
theorem test_decode_table_word_short : decodeTableWord 8 0x50 = some (.wrwh 0#16) := by decide

/-! ## Primitives -/

/-- V-DER-B2, B3, B7, B8. -/
theorem test_set_bit :
    setBit 0x00#8 7 true = 0x80#8 ∧ setBit 0xFF#8 7 false = 0x7F#8 ∧
      setBit 0xA5#8 3 true = 0xAD#8 ∧ setBit 0xA5#8 5 false = 0x85#8 := by decide

/-- V-DER-L1 to L3. -/
theorem test_line_bit : lineBit .high = 1#1 ∧ lineBit .low = 0#1 ∧ lineBit .fail = 0#1 := by decide

/-- V-DER-Q3 as bytes and as a 32-bit word (20_memory.md R44). -/
theorem test_image_word : (Report.image ⟨0x0102#16, 0x05#8, 0x01#8⟩).word32 = 0x01050102#32 := by decide

/-! ## Commands -/

/-- V-SRC-5: every line `High` but L4, which fails. -/
theorem test_refresh_failed_line :
    reportAfter (exec .refresh (atCommand 0 0 0 0x0200#16
      (linesOf [.fret1, .fret2, .fret3, .fret4, .fret6, .strumUp, .strumDown, .start, .select, .hero] [.fret5]))) =
      some ⟨0x0200#16, 0x2F#8, 0x1F#8⟩ := by decide

/-- V-DER-R6, over a report that was full. -/
theorem test_refresh_mixed_lines :
    reportAfter (exec .refresh (atCommand 0x1234#16 0x3F#8 0x1F#8 0x7FFF#16
      (linesOf [.fret2, .fret4, .strumDown, .start] [.fret3, .select]))) =
      some ⟨0x7FFF#16, 0x0A#8, 0x06#8⟩ := by decide

/-- V-DER-Q2. -/
theorem test_read_report_bytes :
    rptAfter (exec .readReport (atCommand 0xABCD#16 0x3F#8 0x1F#8 0 idleLines)) =
      some #v[0xCD#8, 0xAB#8, 0x3F#8, 0x1F#8] := by decide

/-- V-DER-F2. -/
theorem test_setf_clears_top_fret :
    reportAfter (exec (.setf 5 false) (atCommand 0 0x3F#8 0x1F#8 0 idleLines)) =
      some ⟨0, 0x1F#8, 0x1F#8⟩ := by decide

/-- V-DER-F6: refused even though the value is 0. -/
theorem test_setf_unused_bit_refused :
    reportAfter (exec (.setf 7 false) (atCommand 0 0x05#8 0x01#8 0 idleLines)) = none := by decide

/-- V-DER-S1. -/
theorem test_setb_sets_hero :
    reportAfter (exec (.setb 4 true) (atCommand 0 0 0 0 idleLines)) = some ⟨0, 0, 0x10#8⟩ := by decide

/-- V-DER-S2. -/
theorem test_setb_clears_strum_up :
    reportAfter (exec (.setb 0 false) (atCommand 0 0 0x1F#8 0 idleLines)) = some ⟨0, 0, 0x1E#8⟩ := by decide

/-- V-DER-W1: the value 0 is written, and the other fields stay. -/
theorem test_wrwh_zero :
    reportAfter (exec (.wrwh 0x0000#16) (atCommand 0x5555#16 0x01#8 0x01#8 0 idleLines)) =
      some ⟨0x0000#16, 0x01#8, 0x01#8⟩ := by decide

/-- Programs P1 and P3 in part: the word of `WRWH` reaches the machine with its operand. -/
theorem test_wrwh_through_fetch :
    reportAfter (step ((atCommand 0 0x15#8 0x0A#8 0 idleLines).withFetchWord 24 0x040050)) =
      some ⟨0x0400#16, 0x15#8, 0x0A#8⟩ := by decide

/-! ## Steps -/

/-- V-DER-C1: a poll that returns false. -/
theorem test_poll_false :
    step (st 0 0 0 0 .poll .controller { Inputs.free with agents := [.controller], polls := [false] }) =
      .next (st 0 0 0 0 .poll .controller Inputs.free) := rfl

/-- The send of V-DER-C2: the busy frame is recorded, and the phase is `Poll`. -/
theorem test_send_busy :
    step (st 0x0040#16 0x00#8 0x01#8 0x0041#16 .send .controller
        { Inputs.free with agents := [.controller], sends := [.busy] }) =
      .next { st 0x0040#16 0x00#8 0x01#8 0x0041#16 .poll .controller Inputs.free with
        rpt := some #v[0x40#8, 0x00#8, 0x00#8, 0x01#8],
        sent := [{ bytes := #v[0x40#8, 0x00#8, 0x00#8, 0x01#8], result := .busy }] } := rfl

/-- P2, step 5: the converter's step leaves the report alone. -/
theorem test_converter_step :
    step (st 0x0123#16 0x22#8 0x12#8 0x0123#16 .send .controller
        { Inputs.free with agents := [.converter], samples := [0x0456#16] }) =
      .next (st 0x0123#16 0x22#8 0x12#8 0x0456#16 .send .controller Inputs.free) := rfl

/-- P4, steps 2 and 3: a refused word leaves the state but for the mark, and a harness can go on. -/
theorem test_reserved_word_then_setf :
    let s := st 0 0x05#8 0x01#8 0 .poll .harness
      { Inputs.free with agents := [.controller], commands := [⟨0x3D#8, 0#16⟩] }
    (stepOn s).report = s.report ∧ (stepOn s).refusalMark = [0x3D#8] ∧
      reportAfter (exec (.setf 0 false) (stepOn s)) = some ⟨0, 0x04#8, 0x01#8⟩ := by decide

/-! ## The assembler (30_encoding.md R66, R67) -/

/-- Program P1's word stream, assembled from the pseudo-instructions it expands. -/
theorem test_assemble_p1 :
    (assemble ("SETFRETS #0x15\nSETBUTTONS #0x0A ; strum-down and select\n\n".toList ++
        "WRWH #0x0400\nREAD_REPORT".toList)).toOption.map (fun cs => cs.map Command.cmd) =
      some [0x31#8, 0x32#8, 0x35#8, 0x36#8, 0x39#8, 0x3A#8, 0x40#8, 0x43#8, 0x44#8, 0x47#8, 0x48#8, 0x50#8,
        0x20#8] := by decide

theorem test_assemble_names : assembleLine "SETB HERO, 1".toList = .ok [.setb 4 true] := by decide

theorem test_assemble_out_of_range : assembleLine "SETF 6, 1".toList = .error .outOfRange := by decide

/-! ## Witnesses of the statements' hypotheses -/

theorem witness_params_wf : testParams.Wf ∧ (0x0FFF#16).toNat < 2 ^ testParams.adcBits ∧
    ∃ d ∈ testParams.descriptor.schema.fields, d.field = .buttons ∧
      ∃ u ∈ d.usage.buttonUsages, u = ⟨8, 7⟩ ∧ 6 ≤ u.number := by
  refine ⟨by decide, by decide, ⟨.buttons, 24, 8, .buttonPage (Config.buttonUsagesInOrder 8)⟩, by decide, rfl,
    ⟨8, 7⟩, by decide, rfl, by decide⟩

/-- A state that meets the invariant, with every significant bit set and the greatest sample. -/
def full : State := atCommand 0xFFFF#16 0x3F#8 0x1F#8 0x0FFF#16 (linesOf [.fret1] [.hero])

/-- The same sample and line draw with another report. -/
def blank : State := atCommand 0x0000#16 0x00#8 0x00#8 0x0FFF#16 (linesOf [.fret1] [.hero])

/-- The test states meet the invariant when their fields do. -/
theorem st_inv (w : Half) (f b : Byte) (a : Half) (p : Phase) (i : Issuer) (e : Inputs)
    (hf : f.extractLsb' 6 2 = 0#2) (hb : b.extractLsb' 5 3 = 0#3) (ha : a.toNat < 2 ^ 12) :
    (st w f b a p i e).Inv where
  params := witness_params_wf.1
  report := ⟨hf, hb⟩
  sample := ha
  returned := fun _ h => nomatch h
  offered := fun _ h => nomatch h

theorem full_inv : full.Inv := st_inv _ _ _ _ _ _ _ (by decide) (by decide) (by decide)

theorem blank_inv : blank.Inv := st_inv _ _ _ _ _ _ _ (by decide) (by decide) (by decide)

theorem witness_power_cycle : full.params = blank.params ∧ full.inputs = blank.inputs ∧ full ≠ blank := by decide

theorem witness_set_bit_other : (0 : Nat) ≠ (7 : BitVec 3).toNat ∧ (8 : Nat) ≠ (7 : BitVec 3).toNat := by decide

theorem witness_partial_access : ¬((0 : Nat) = 0 ∧ (2 : Nat) = 4) ∧ ¬((1 : Nat) = 0 ∧ (4 : Nat) = 4) := by
  decide

theorem witness_well_formed : (Instr.setf 5 true).WellFormed ∧ (Instr.setb 4 false).WellFormed ∧
    Instr.refresh.WellFormed ∧ Instr.readReport.WellFormed ∧ (Instr.wrwh 0xFFFF#16).WellFormed ∧
    ∀ v : Half, Instr.setf 5 true ≠ .wrwh v :=
  ⟨by decide, by decide, trivial, trivial, trivial, fun _ => by simp⟩

theorem witness_decoded : decode { cmd := 0x3B#8, dat := 0#16 } = .ok (.setf 5 true) ∧
    decode { cmd := 0x50#8, dat := 9#16 } = .ok (.wrwh 9#16) ∧ (0x3B#8 : Byte) ≠ 0x50#8 := by decide

/-- The harness about to issue `c`. -/
def harnessed (c : Command) : State :=
  st 0 0x05#8 0x01#8 0 .poll .harness { Inputs.free with agents := [.controller], commands := [c] }

/-- The controller about to act in phase `p`. -/
def looping (p : Phase) : State :=
  st 0 0x05#8 0x01#8 0x0123#16 p .controller
    { Inputs.free with agents := [.controller], lines := [idleLines], polls := [true], sends := [.accepted] }

theorem witness_harness_step : (harnessed ⟨0x35#8, 0#16⟩).nextAgent = .controller ∧
    (harnessed ⟨0x35#8, 0#16⟩).issuer = .harness ∧
    decode (harnessed ⟨0x35#8, 0#16⟩).popAgent.nextCommand = .ok (.setf 2 true) := by decide

theorem witness_reserved_step : (harnessed ⟨0x3D#8, 0#16⟩).nextAgent = .controller ∧
    (harnessed ⟨0x3D#8, 0#16⟩).issuer = .harness ∧
    decode (harnessed ⟨0x3D#8, 0#16⟩).popAgent.nextCommand = .error .fretIndex ∧
    step (harnessed ⟨0x3D#8, 0#16⟩) =
      .refused (.reservedCommand 0x3D#8 .fretIndex (stepOn (harnessed ⟨0x3D#8, 0#16⟩))) :=
  ⟨by decide, by decide, by decide, rfl⟩

theorem witness_controller_phases :
    ∀ p ∈ [Phase.poll, .refresh, .send], (looping p).nextAgent = .controller ∧ (looping p).Normal ∧
      (looping p).phase = p := by decide

theorem witness_placed : decodeTableWord 8 0x49 = some (.setb 4 true) := by decide

/-- The converter about to take the greatest 12-bit sample. -/
def converting : State :=
  st 0 0 0 0 .poll .controller { Inputs.free with agents := [.converter], samples := [0x0FFF#16] }

theorem witness_converter : converting.nextAgent = .converter ∧
    converting.popAgent.nextSample.toNat < 2 ^ converting.params.adcBits := by decide

theorem witness_setf_clauses : (5 : BitVec 3).toNat ≤ 5 ∧ 5 < (6 : BitVec 3).toNat ∧
    full.report.frets.getLsbD (5 : BitVec 3).toNat = true := by decide

theorem witness_setb_clauses : (4 : BitVec 3).toNat ≤ 4 ∧ 4 < (5 : BitVec 3).toNat ∧
    full.report.buttons.getLsbD (4 : BitVec 3).toNat = true := by decide

theorem witness_unused_zero : full.report.UnusedZero := full_inv.report

theorem witness_two_refreshes : full.Inv ∧ blank.Inv ∧ blank.nextLines = full.nextLines ∧
    blank.adcSample = full.adcSample ∧ blank.report ≠ full.report :=
  ⟨full_inv, blank_inv, rfl, rfl, by decide⟩

/-- Both ends of each range of line numbers. -/
theorem witness_line_numbers : ((0 : Fin 11).val ≤ 5 ∧ (5 : Fin 11).val ≤ 5) ∧ 6 ≤ (6 : Fin 11).val ∧
    6 ≤ (10 : Fin 11).val := by decide

/-- Each command completes from `blank`; the fields that have a writer change. -/
theorem witness_commands_complete :
    (∃ t, exec .refresh blank = .next t ∧ t.report.whammy ≠ blank.report.whammy ∧
      t.report.frets ≠ blank.report.frets) ∧
    (∃ t, exec .readReport blank = .next t) ∧
    (∃ t, exec (.setf 5 true) blank = .next t ∧ t.report.frets ≠ blank.report.frets) ∧
    (∃ t, exec (.setb 4 true) blank = .next t ∧ t.report.buttons ≠ blank.report.buttons) ∧
    (∃ t, exec (.wrwh 0xFFFF#16) blank = .next t ∧ t.report.whammy ≠ blank.report.whammy) := by
  refine ⟨⟨_, rfl, ?_, ?_⟩, ⟨_, rfl⟩, ⟨_, rfl, ?_⟩, ⟨_, rfl, ?_⟩, ⟨_, rfl, ?_⟩⟩ <;> decide

/-- Offsets that the frame of the image speaks of for each port. -/
theorem witness_image_offsets : (3 : Nat) < 4 ∧ (3 : Nat) ≠ 2 ∧ (0 : Nat) ≠ 3 ∧ 2 ≤ (2 : Nat) := by decide

theorem witness_port_sequence :
    (∀ w ∈ [((4 : BitVec 3), true), (0, false)], w.1.toNat ≤ 4) ∧
    (∀ w ∈ [((4 : BitVec 3), true), (0, false)], w.1.toNat ≠ 3) ∧
    (∀ w ∈ [((5 : BitVec 3), true), (0, false)], w.1.toNat ≤ 5) ∧
    (∀ w ∈ [((5 : BitVec 3), true), (0, false)], w.1.toNat ≠ 7) := by decide

theorem witness_commands_after_read : ∃ t u, exec .readReport full = .next t ∧
    (∀ i ∈ [Instr.wrwh 0#16, .refresh], i ≠ .readReport) ∧
    execAll [.wrwh 0#16, .refresh] t = .next u :=
  ⟨_, _, rfl, by decide, rfl⟩

/-- The `Refresh` phase with two converter steps before the send. -/
def betweenRefreshAndSend : State :=
  st 0 0 0 0x0040#16 .refresh .controller
    { Inputs.free with
      agents := [.controller, .converter, .converter, .controller], lines := [linesOf [.strumUp] []] }

theorem witness_refresh_then_send : betweenRefreshAndSend.Normal ∧ betweenRefreshAndSend.phase = .refresh ∧
    betweenRefreshAndSend.inputs.agents = .controller :: (List.replicate 2 .converter ++ .controller :: []) := by
  decide

theorem witness_send_phase : (looping .send).Normal ∧ (looping .send).phase = .send ∧
    (looping .send).nextAgent = .controller := by decide

/-- Two polls that return false, with a converter step between. -/
def idling : State :=
  st 0 0x05#8 0x01#8 0 .poll .controller
    { Inputs.free with agents := [.controller, .converter, .controller], polls := [false, false, false, true] }

theorem witness_idle_loop : idling.Normal ∧ idling.phase = .poll ∧
    idling.inputs.agents = [.controller, .converter, .controller] ++ [] ∧
    idling.inputs.polls = List.replicate 3 false ++ [true] ∧
    [Agent.controller, .converter, .controller].length ≤ 3 := by decide

theorem witness_report_written_in_refresh : (looping .refresh).Normal ∧
    ∃ t, step (looping .refresh) = .next t ∧ t.report ≠ (looping .refresh).report := by
  refine ⟨by decide, _, rfl, ?_⟩
  decide

theorem witness_invariant_steps : (looping .send).Inv ∧ (∃ t, step (looping .send) = .next t) ∧
    (harnessed ⟨0x3D#8, 0#16⟩).Inv :=
  ⟨st_inv _ _ _ _ _ _ _ (by decide) (by decide) (by decide), ⟨_, rfl⟩,
    st_inv _ _ _ _ _ _ _ (by decide) (by decide) (by decide)⟩

theorem witness_reachable : Reachable State.reset :=
  Reachable.reset Config.params Config.resetDraw Inputs.free .controller (by decide)

theorem witness_reset_normal : State.reset.Normal := rfl

end Sys2Proof.Tests
end

namespace Sys2Proof.Machine

/-! ## Unused bits under the bit-setter and the commands -/

/-- `set_bit` leaves every bit above its index alone (40_sampler.md R81). -/
theorem setBit_extractLsb'_of_lt (v : Byte) {i : BitVec 3} (b : Bool) {start : Nat} (len : Nat)
    (h : i.toNat < start) : (setBit v i b).extractLsb' start len = v.extractLsb' start len := by
  apply BitVec.eq_of_getLsbD_eq
  intro j hj
  have hne : start + j ≠ i.toNat := by omega
  simp only [BitVec.getLsbD_extractLsb', setBit_getLsbD, if_neg hne]

/-- Packing lines leaves every bit above their destinations alone. -/
theorem packLines_extractLsb'_of_lt {ks : List Line} (l : Lines) (v : Byte) {start : Nat} (len : Nat)
    (h : ∀ k ∈ ks, (lineDest k).toNat < start) :
    (packLines ks l v).extractLsb' start len = v.extractLsb' start len := by
  induction ks generalizing v with
  | nil => rfl
  | cons k ks ih =>
    obtain ⟨hk, hks⟩ := List.forall_mem_cons.mp h
    rw [packLines_cons, ih _ hks, setBit_extractLsb'_of_lt _ _ _ hk]

/-- Two reports hold the same unused bits, `frets[7:6]` and `buttons[7:5]` (10_state.md R22, R23). -/
structure Report.SameUnused (r r' : Report) : Prop where
  frets : r.frets.extractLsb' 6 2 = r'.frets.extractLsb' 6 2
  buttons : r.buttons.extractLsb' 5 3 = r'.buttons.extractLsb' 5 3

@[simp] theorem Report.SameUnused.refl (r : Report) : r.SameUnused r := ⟨rfl, rfl⟩

theorem Report.UnusedZero.of_sameUnused {r r' : Report} (hz : r'.UnusedZero) (h : r.SameUnused r') :
    r.UnusedZero :=
  ⟨h.frets.trans hz.1, h.buttons.trans hz.2⟩

/-- Fret lines go to bits 0..5 and button lines to bits 0..4 (10_state.md R24). -/
theorem refreshReport_sameUnused (l : Lines) (adc : Half) (r : Report) :
    (refreshReport l adc r).SameUnused r :=
  ⟨packLines_extractLsb'_of_lt l r.frets 2 (by decide), packLines_extractLsb'_of_lt l r.buttons 3 (by decide)⟩

theorem exec_sameUnused {i : Instr} {s t : State} (h : exec i s = .next t) : t.report.SameUnused s.report := by
  obtain ⟨-, rfl⟩ | ⟨-, rfl⟩ | ⟨idx, val, -, hidx, rfl⟩ | ⟨idx, val, -, hidx, rfl⟩ | ⟨v, -, rfl⟩ :=
    exec_next_cases h
  · exact refreshReport_sameUnused _ _ _
  · exact .refl s.report
  · exact ⟨setBit_extractLsb'_of_lt _ val 2 hidx, rfl⟩
  · exact ⟨rfl, setBit_extractLsb'_of_lt _ val 3 hidx⟩
  · exact ⟨rfl, rfl⟩

/-- Settles O31: by what each command that completes can have done. -/
theorem eachFieldHasItsWriters : Obligations.EachFieldHasItsWriters := by
  unfold Obligations.EachFieldHasItsWriters
  intro i s t h
  obtain ⟨hfrets, hbuttons⟩ := exec_sameUnused h
  obtain ⟨rfl, -⟩ | ⟨rfl, rfl⟩ | ⟨idx, val, rfl, -, rfl⟩ | ⟨idx, val, rfl, -, rfl⟩ | ⟨v, rfl, rfl⟩ :=
    exec_next_cases h
  · exact ⟨fun _ => .inl rfl, fun _ => .inl rfl, fun _ => .inl rfl, hfrets, hbuttons⟩
  · exact ⟨absurd rfl, absurd rfl, absurd rfl, hfrets, hbuttons⟩
  · exact ⟨absurd rfl, fun _ => .inr ⟨idx, val, rfl⟩, absurd rfl, hfrets, hbuttons⟩
  · exact ⟨absurd rfl, absurd rfl, fun _ => .inr ⟨idx, val, rfl⟩, hfrets, hbuttons⟩
  · exact ⟨fun _ => .inr ⟨v, rfl⟩, absurd rfl, absurd rfl, hfrets, hbuttons⟩

/-! ## What a step can do -/

@[simp] theorem transportSend_report (s : State) : (transportSend s).report = s.report := rfl

/-- The outcomes a step from `s` can have, each under the guards that lead to it (40_sampler.md R86;
42_orchestration.md R141, R147; 60_exceptions.md R163). -/
inductive StepCase (s : State) : Result → Prop where
  | converter (ha : s.nextAgent = .converter) :
      StepCase s (.next (s.popAgent.popSample.withAdcSample
        (convertedSample s.params.adcBits s.popAgent.nextSample)))
  | poll (ha : s.nextAgent = .controller) (hi : s.issuer = .controller) (hp : s.phase = .poll) :
      StepCase s (.next (s.popAgent.popPoll.withPhase (if s.popAgent.nextPoll then .refresh else .poll)))
  | refresh (ha : s.nextAgent = .controller) (hi : s.issuer = .controller) (hp : s.phase = .refresh) :
      StepCase s (.next ((s.popAgent.popLines.withReport
        (refreshReport s.popAgent.nextLines s.adcSample s.report)).withPhase .send))
  | send (ha : s.nextAgent = .controller) (hi : s.issuer = .controller) (hp : s.phase = .send) :
      StepCase s (.next (transportSend (s.popAgent.withRpt s.report.image)))
  | command (ha : s.nextAgent = .controller) (hi : s.issuer = .harness) (i : Instr) (t : State)
      (hd : decode s.popAgent.nextCommand = .ok i) (he : exec i s.popAgent.popCommand = .next t) :
      StepCase s (.next t)
  | reserved (ha : s.nextAgent = .controller) (hi : s.issuer = .harness) (why : Reserved)
      (hd : decode s.popAgent.nextCommand = .error why) :
      StepCase s (.refused (.reservedCommand s.popAgent.nextCommand.cmd why
        (s.popAgent.popCommand.withRefused s.popAgent.nextCommand.cmd)))

/-- Every step is one of these cases: by the agent that moves, who issues commands, and the phase or the command. -/
theorem step_stepCase (s : State) : StepCase s (step s) := by
  cases ha : s.nextAgent with
  | converter =>
    rw [step_converter ha]
    exact .converter ha
  | controller =>
    cases hi : s.issuer with
    | controller =>
      rw [step_controller ha hi]
      cases hp : s.phase with
      | poll =>
        rw [controllerStep_poll (s := s.popAgent) hp]
        exact .poll ha hi hp
      | refresh =>
        rw [controllerStep_refresh (s := s.popAgent) hp]
        exact .refresh ha hi hp
      | send =>
        rw [controllerStep_send (s := s.popAgent) hp]
        exact .send ha hi hp
    | harness =>
      rw [step_harness ha hi]
      obtain ⟨i, t, hd, -, hissue, he⟩ | ⟨why, hd, hissue⟩ :=
        issue_cases s.popAgent.nextCommand s.popAgent.popCommand
      · rw [hissue, he]
        exact .command ha hi i t hd he
      · rw [hissue]
        exact .reserved ha hi why hd

/-! ## Runs that go on past refused commands -/

theorem stepOn_of_next {s t : State} (h : step s = .next t) : stepOn s = t := by
  rw [stepOn, h, stateAfter]

theorem stepOn_of_reserved {s t : State} {cmd : Byte} {why : Reserved}
    (h : step s = .refused (.reservedCommand cmd why t)) : stepOn s = t := by
  rw [stepOn, h, stateAfter]

/-- What holds after every reset and is kept by `stepOn` holds in every reachable state. -/
theorem Reachable.invariant {P : State → Prop}
    (hreset : ∀ (p : Params) (d : Half) (e : Inputs) (i : Issuer), p.Wf →
      P (((State.resetWith p d).withInputs e).withIssuer i))
    (hstep : ∀ s, P s → P (stepOn s)) {s : State} (h : Reachable s) : P s := by
  induction h with
  | reset p d e i hp => exact hreset p d e i hp
  | next s t _ ht ih => exact stepOn_of_next ht ▸ hstep s ih
  | refused s t cmd why _ ht ih => exact stepOn_of_reserved ht ▸ hstep s ih

theorem StepCase.sameUnused {s : State} {o : Result} (h : StepCase s o) :
    (stateAfter s o).report.SameUnused s.report := by
  cases h with
  | converter | poll | send | reserved => simp [stateAfter]
  | refresh => exact refreshReport_sameUnused _ _ _
  | command _ _ i t _ he => simpa [stateAfter] using exec_sameUnused he

/-- No step changes an unused bit, a refused one included. -/
theorem stepOn_sameUnused (s : State) : (stepOn s).report.SameUnused s.report :=
  (step_stepCase s).sameUnused

theorem Report.idle_unusedZero : Report.idle.UnusedZero := by decide

/-- Settles O49: the unused bits are zero after reset, and no step changes them. -/
theorem unusedBitsZeroInEveryReachableState : Obligations.UnusedBitsZeroInEveryReachableState := by
  unfold Obligations.UnusedBitsZeroInEveryReachableState
  intro s hs
  exact hs.invariant (P := fun s => s.report.UnusedZero)
    (hreset := fun _ _ _ _ _ => Report.idle_unusedZero)
    (hstep := fun s hz => hz.of_sameUnused (stepOn_sameUnused s))

end Sys2Proof.Machine

namespace Sys2Proof.Machine

/-! ## The image as little-endian words (20_memory.md R44) -/

/-- Offsets 0..1 put the two bytes of `whammy` back together (20_memory.md R43). -/
@[simp] theorem Report.image_word16 (r : Report) : r.image.word16 = r.whammy :=
  BitVec.extractLsb'_append_extractLsb'

/-- The 32-bit word ends in the 16-bit word. -/
theorem Image.word32_eq_append_word16 (b : Image) : b.word32 = b[3] ++ b[2] ++ b.word16 :=
  BitVec.append_assoc

@[simp] theorem Report.image_word32 (r : Report) : r.image.word32 = r.buttons ++ r.frets ++ r.whammy := by
  rw [Image.word32_eq_append_word16, Report.image_word16]
  rfl

theorem Report.image_word32_buttons (r : Report) : r.image.word32.extractLsb' 24 8 = r.buttons := by
  rw [Report.image_word32, BitVec.extractLsb'_append_eq_of_le (by decide)]
  exact BitVec.extractLsb'_append_eq_left

theorem Report.image_word32_frets (r : Report) : r.image.word32.extractLsb' 16 8 = r.frets := by
  rw [Report.image_word32, BitVec.extractLsb'_append_eq_of_le (by decide)]
  exact BitVec.extractLsb'_append_eq_right

theorem Report.image_word32_whammy (r : Report) : r.image.word32.extractLsb' 0 16 = r.whammy := by
  rw [Report.image_word32, BitVec.extractLsb'_append_eq_right]

/-- Settles O8: the low bytes join to `whammy`, and each field is then a slice of the joined fields. -/
theorem imageAsLittleEndianWords : Obligations.ImageAsLittleEndianWords := by
  unfold Obligations.ImageAsLittleEndianWords
  intro r
  exact ⟨r.image_word32, r.image_word32_buttons, r.image_word32_frets, r.image_word32_whammy, r.image_word16⟩

/-! ## The one access to the image (20_memory.md R45) -/

/-- Any access but the whole image is refused. -/
theorem memRead_of_not_whole (r : Report) {offset length : Nat}
    (h : ¬(offset = 0 ∧ length = Config.reportBytes)) :
    memRead r offset length = .error (.imageAccess offset length) :=
  if_neg h

/-- `READ_REPORT` completes from every state with the image that the one access returns. -/
theorem exec_readReport (s : State) : exec .readReport s = .next (s.withRpt s.report.image) := by
  simp only [exec, execReadReport, memRead_image]

/-- Settles O7: by the two outcomes of `memRead`, and the command that performs the whole read. -/
theorem onlyWholeImageIsRead : Obligations.OnlyWholeImageIsRead := by
  unfold Obligations.OnlyWholeImageIsRead
  refine ⟨memRead_image, fun r _ _ h => memRead_of_not_whole r h, fun s => ?_⟩
  exact ⟨s.withRpt s.report.image, s.report.image, exec_readReport s, memRead_image s.report, s.withRpt_rpt _⟩

end Sys2Proof.Machine

namespace Sys2Proof.Machine

/-! ## The fields of a command word (30_encoding.md R61, R62) -/

@[simp] theorem opField_append (op : BitVec 4) (idx : BitVec 3) (val : Bool) :
    opField (op ++ idx ++ BitVec.ofBool val) = op := by
  rw [opField, BitVec.extractLsb'_append_eq_of_le (by decide)]
  exact BitVec.extractLsb'_append_eq_left

@[simp] theorem idxField_append (op : BitVec 4) (idx : BitVec 3) (val : Bool) :
    idxField (op ++ idx ++ BitVec.ofBool val) = idx := by
  rw [idxField, BitVec.extractLsb'_append_eq_of_le (by decide)]
  exact BitVec.extractLsb'_append_eq_right

@[simp] theorem valField_append (op : BitVec 4) (idx : BitVec 3) (val : Bool) :
    valField (op ++ idx ++ BitVec.ofBool val) = val := by
  rw [valField, BitVec.getLsbD_append, if_pos (by decide), BitVec.getLsbD_ofBool]
  rfl

/-- The two nibbles of a word of format N or D are the word. -/
theorem opField_append_zField (cmd : Byte) : opField cmd ++ zField cmd = cmd :=
  BitVec.extractLsb'_append_extractLsb'

theorem ofBool_valField (cmd : Byte) : BitVec.ofBool (valField cmd) = cmd.extractLsb' 0 1 := by
  rw [valField, ← BitVec.setWidth_one, BitVec.setWidth_eq_extractLsb' (by decide)]

/-- The three fields of a word of format B are the word. -/
theorem opField_append_idxField_append_valField (cmd : Byte) :
    opField cmd ++ idxField cmd ++ BitVec.ofBool (valField cmd) = cmd := by
  have hhigh : opField cmd ++ idxField cmd = cmd.extractLsb' 1 7 :=
    BitVec.extractLsb'_append_extractLsb'_eq_extractLsb' rfl
  rw [hhigh, ofBool_valField]
  exact BitVec.extractLsb'_append_extractLsb'

/-! ## The decoder against the encoder (30_encoding.md R61 to R64) -/

/-- A well-formed instruction is decoded from its word, presented with `dat` = imm16 for `WRWH`. -/
theorem decode_of_wellFormed {c : Command} {i : Instr} (hi : i.WellFormed) (hword : encodeWord i = c.cmd)
    (hdat : ∀ imm16 : Half, i = .wrwh imm16 → c.dat = imm16) : decode c = .ok i := by
  obtain ⟨cmd, dat⟩ := c
  subst hword
  cases i with
  | refresh => simp [decode, encodeWord, opField, zField]
  | readReport => simp [decode, encodeWord, opField, zField]
  | setf idx val => simp [decode, encodeWord, if_pos hi]
  | setb idx val => simp [decode, encodeWord, if_pos hi]
  | wrwh imm16 =>
    obtain rfl : dat = imm16 := hdat imm16 rfl
    simp [decode, encodeWord, opField, zField]

/-- Everything a word that the decoder accepts can be: the format, and the operands read from its fields. -/
theorem decode_ok_cases {c : Command} {i : Instr} (h : decode c = .ok i) :
    (opField c.cmd = 0x1#4 ∧ zField c.cmd = 0#4 ∧ i = .refresh) ∨
    (opField c.cmd = 0x2#4 ∧ zField c.cmd = 0#4 ∧ i = .readReport) ∨
    (opField c.cmd = 0x3#4 ∧ i = .setf (idxField c.cmd) (valField c.cmd)) ∨
    (opField c.cmd = 0x4#4 ∧ i = .setb (idxField c.cmd) (valField c.cmd)) ∨
    (opField c.cmd = 0x5#4 ∧ zField c.cmd = 0#4 ∧ i = .wrwh c.dat) := by
  unfold decode at h
  split at h <;> (try split at h) <;> cases h
  · exact .inl ⟨‹_›, ‹_›, rfl⟩
  · exact .inr (.inl ⟨‹_›, ‹_›, rfl⟩)
  · exact .inr (.inr (.inl ⟨‹_›, rfl⟩))
  · exact .inr (.inr (.inr (.inl ⟨‹_›, rfl⟩)))
  · exact .inr (.inr (.inr (.inr ⟨‹_›, ‹_›, rfl⟩)))

/-- The decoder accepts a word only as the instruction that has it as its word. -/
theorem encodeWord_of_decode {c : Command} {i : Instr} (h : decode c = .ok i) : encodeWord i = c.cmd := by
  have hnibbles := opField_append_zField c.cmd
  have hbits := opField_append_idxField_append_valField c.cmd
  obtain ⟨hop, hz, rfl⟩ | ⟨hop, hz, rfl⟩ | ⟨hop, rfl⟩ | ⟨hop, rfl⟩ | ⟨hop, hz, rfl⟩ := decode_ok_cases h
  · rwa [hop, hz] at hnibbles
  · rwa [hop, hz] at hnibbles
  · rwa [hop] at hbits
  · rwa [hop] at hbits
  · rwa [hop, hz] at hnibbles

/-- `WRWH` takes its operand from `dat`. -/
theorem dat_of_decode_wrwh {c : Command} {imm16 : Half} (h : decode c = .ok (.wrwh imm16)) : c.dat = imm16 := by
  obtain ⟨-, -, hi⟩ | ⟨-, -, hi⟩ | ⟨-, hi⟩ | ⟨-, hi⟩ | ⟨-, -, hi⟩ := decode_ok_cases h <;> cases hi
  rfl

/-- Settles O13: each instruction is decoded from its own word and operand. -/
theorem decodeOfEncodeIsInstruction : Obligations.DecodeOfEncodeIsInstruction := by
  unfold Obligations.DecodeOfEncodeIsInstruction
  intro i hi
  constructor
  · refine decode_of_wellFormed hi rfl ?_
    rintro imm16 rfl
    rfl
  · intro hne dat
    exact decode_of_wellFormed hi rfl fun imm16 h => absurd h (hne imm16)

/-- Settles O14: by the formats of the words that the decoder accepts. -/
theorem encodeOfDecodeIsWord : Obligations.EncodeOfDecodeIsWord := by
  unfold Obligations.EncodeOfDecodeIsWord
  intro c i h
  refine ⟨wellFormed_of_decode h, encodeWord_of_decode h, ?_⟩
  rintro imm16 rfl
  exact dat_of_decode_wrwh h

/-! ## The legal words (30_encoding.md section 4) -/

/-- The legal words are the words of the well-formed instructions. -/
theorem decode_isOk_iff (cmd : Byte) (dat : Half) :
    (decode { cmd := cmd, dat := dat }).isOk = true ↔ ∃ i : Instr, i.WellFormed ∧ encodeWord i = cmd := by
  constructor
  · intro h
    cases hd : decode { cmd := cmd, dat := dat } with
    | ok i => exact ⟨i, wellFormed_of_decode hd, encodeWord_of_decode hd⟩
    | error why =>
      rw [hd] at h
      cases h
  · rintro ⟨i, hi, rfl⟩
    obtain ⟨j, hj⟩ : ∃ j, decode { cmd := encodeWord i, dat := dat } = .ok j := by
      cases i with
      | wrwh imm16 => exact ⟨.wrwh dat, decode_of_wellFormed trivial rfl fun _ h => Instr.wrwh.inj h⟩
      | refresh | readReport | setf | setb => exact ⟨_, decode_of_wellFormed hi rfl fun _ h => nomatch h⟩
    rw [hj]
    rfl

/-- Whether a word is legal does not depend on `dat` (30_encoding.md R60). -/
theorem decode_isOk_dat (cmd : Byte) (dat dat' : Half) :
    (decode { cmd := cmd, dat := dat }).isOk = (decode { cmd := cmd, dat := dat' }).isOk :=
  Bool.eq_iff_iff.mpr ((decode_isOk_iff cmd dat).trans (decode_isOk_iff cmd dat').symm)

/-- Settles O10: legality does not depend on `dat`, and with `dat` = 0 the 256 words are counted. -/
theorem legalWordsAreTwentyFive : Obligations.LegalWordsAreTwentyFive := by
  unfold Obligations.LegalWordsAreTwentyFive
  intro dat
  simp only [decode_isOk_dat _ dat 0#16]
  decide

/-- Settles O12: by evaluation of the decoder on the six words. -/
theorem writtenOutWordsDecode : Obligations.WrittenOutWordsDecode := by
  unfold Obligations.WrittenOutWordsDecode
  decide

/-! ## The opcode table (30_encoding.md section 3) -/

/-- Every row of the table fixes the operation. -/
theorem opField_of_fits {r : OpcodeRow} {cmd : Byte} (hr : r ∈ opcodeTable) (h : r.fits cmd = true) :
    opField cmd = opField r.bits := by
  have hmask : ∀ r ∈ opcodeTable, opField r.mask = BitVec.allOnes 4 := by decide
  have hbits : cmd &&& r.mask = r.bits := eq_of_beq h
  calc opField cmd = opField cmd &&& opField r.mask := by rw [hmask r hr, BitVec.and_allOnes]
    _ = opField (cmd &&& r.mask) := BitVec.extractLsb'_and.symm
    _ = opField r.bits := congrArg opField hbits

/-- No two rows of the table have the same operation, and no two the same mnemonic. -/
theorem opcodeTable_opField_inj :
    ∀ r ∈ opcodeTable, ∀ r' ∈ opcodeTable, opField r.bits = opField r'.bits → r = r' := by decide

theorem opcodeTable_mnemonic_inj :
    ∀ r ∈ opcodeTable, ∀ r' ∈ opcodeTable, r.mnemonic = r'.mnemonic → r = r' := by decide

/-- The word of a well-formed instruction fits the row of its mnemonic. -/
theorem exists_row_fits {i : Instr} (hi : i.WellFormed) :
    ∃ r ∈ opcodeTable, r.mnemonic = i.mnemonic ∧ r.fits (encodeWord i) = true := by
  cases i with
  | refresh => exact Laws.FitsTable.refresh hi
  | readReport => exact Laws.FitsTable.readReport hi
  | setf idx val => exact Laws.FitsTable.setf idx val hi
  | setb idx val => exact Laws.FitsTable.setb idx val hi
  | wrwh imm16 => exact Laws.FitsTable.wrwh imm16 hi

/-- Settles O15: the word fits the row of its mnemonic, and no two rows share an operation or a mnemonic. -/
theorem decodedWordFitsOneTableRow : Obligations.DecodedWordFitsOneTableRow := by
  unfold Obligations.DecodedWordFitsOneTableRow
  intro c i h r hr
  obtain ⟨r', hr', hmnemonic, hfits⟩ := exists_row_fits (wellFormed_of_decode h)
  rw [encodeWord_of_decode h] at hfits
  constructor
  · intro hrfits
    have hop : opField r.bits = opField r'.bits := (opField_of_fits hr hrfits).symm.trans (opField_of_fits hr' hfits)
    rw [opcodeTable_opField_inj r hr r' hr' hop, hmnemonic]
  · intro hrm
    rwa [opcodeTable_mnemonic_inj r hr r' hr' (hrm.trans hmnemonic.symm)]

end Sys2Proof.Machine

namespace Sys2Proof.Machine

/-! ## The bit-setter (40_sampler.md R80, R81) -/

/-- `set_bit` writes its bit. -/
@[simp] theorem setBit_getLsbD_same (v : Byte) (i : BitVec 3) (s : Bool) : (setBit v i s).getLsbD i.toNat = s := by
  rw [setBit_getLsbD, if_pos rfl]

/-- `set_bit` keeps every other bit. -/
theorem setBit_getLsbD_of_ne (v : Byte) {i : BitVec 3} (s : Bool) {j : Nat} (h : j ≠ i.toNat) :
    (setBit v i s).getLsbD j = v.getLsbD j := by
  rw [setBit_getLsbD, if_neg h]

/-- A bit set twice holds the later value. -/
@[simp] theorem setBit_setBit_same (v : Byte) (i : BitVec 3) (s s' : Bool) :
    setBit (setBit v i s) i s' = setBit v i s' := by
  apply BitVec.eq_of_getLsbD_eq
  intro j _
  by_cases hj : j = i.toNat
  · subst hj
    rw [setBit_getLsbD_same, setBit_getLsbD_same]
  · rw [setBit_getLsbD_of_ne _ _ hj, setBit_getLsbD_of_ne _ _ hj, setBit_getLsbD_of_ne _ _ hj]

theorem setBit_extractLsb'_same (v : Byte) (i : BitVec 3) (s : Bool) :
    (setBit v i s).extractLsb' i.toNat 1 = boolToBit s := by
  apply BitVec.eq_of_getLsbD_eq
  intro j hj
  obtain rfl : j = 0 := by omega
  simp [boolToBit]

/-- Settles O5: the formula is the definition, and its bits are those of `setBit_getLsbD`. -/
theorem setBitWritesOneBit : Obligations.SetBitWritesOneBit := by
  unfold Obligations.SetBitWritesOneBit
  exact fun v i s => ⟨rfl, setBit_getLsbD_same v i s, fun _ hj => setBit_getLsbD_of_ne v s hj⟩

/-- Settles O6: the three laws, of which the first is that other bits are kept. -/
theorem setBitThreeLaws : Obligations.SetBitThreeLaws := by
  unfold Obligations.SetBitThreeLaws
  exact fun v i s =>
    ⟨fun _ => Not.imp_symm (setBit_getLsbD_of_ne v s), setBit_setBit_same v i s s, setBit_extractLsb'_same v i s⟩

/-! ## The converter (40_sampler.md R86) -/

/-- The converter's turn, with a legal draw `v` at the head of its queue, loads `v` and takes the two draws. -/
theorem step_of_converter_draw (s : State) (v : Half) (e : Inputs) (hv : v.toNat < 2 ^ s.params.adcBits) :
    step (s.withInputs { e with agents := .converter :: e.agents, samples := v :: e.samples }) =
      .next ((s.withAdcSample v).withInputs e) := by
  calc step (s.withInputs { e with agents := .converter :: e.agents, samples := v :: e.samples })
    _ = .next ((s.withAdcSample (convertedSample s.params.adcBits v)).withInputs e) := rfl
    _ = .next ((s.withAdcSample v).withInputs e) := by rw [convertedSample_of_lt _ v hv]

/-- Settles O20: by the value `convertedSample` that the converter's step loads. -/
theorem converterStepLoadsSample : Obligations.ConverterStepLoadsSample := by
  unfold Obligations.ConverterStepLoadsSample
  refine ⟨fun s hs => ?_, step_of_converter_draw⟩
  exact ⟨_, step_converter hs, rfl, convertedSample_of_lt s.params.adcBits _, convertedSample_lt _ _⟩

/-! ## Lines and their places (10_state.md R24) -/

/-- The bit of a line is 1 exactly when the line reads `High` (40_sampler.md R83). -/
@[simp] theorem lineBit_beq_one (r : LineRead) : (lineBit r == 1#1) = (r == .high) := by
  cases r <;> rfl

/-- A draw with result number `i` replaced. -/
theorem readLine_set (l : Lines) (i : Fin 11) (x : LineRead) (k : Line) :
    readLine (l.set i x) k = if lineIndex k = i then x else readLine l k := by
  simp only [readLine, Vector.get_eq_getElem, Vector.getElem_set, Fin.ext_iff, eq_comm]

/-- The lines in order of their numbers are the fret lines and then the button lines. -/
theorem getElem?_lineIndex (k : Line) : (fretLines ++ buttonLines)[(lineIndex k).val]? = some k := by
  cases k <;> rfl

/-- Each line has its own number. -/
theorem lineIndex_injective : Function.Injective lineIndex := fun k m h =>
  Option.some.inj (by rw [← getElem?_lineIndex k, h, getElem?_lineIndex m])

/-- No two fret lines go to one bit. -/
theorem fretLines_dest_nodup : (fretLines.map lineDest).Nodup := by decide

/-- No two button lines go to one bit. -/
theorem buttonLines_dest_nodup : (buttonLines.map lineDest).Nodup := by decide

/-- Lines L0..L5 are the fret lines, with Lk at bit k. -/
theorem exists_fretLine : ∀ i : Fin 11, i.val ≤ 5 →
    (∃ k ∈ fretLines, lineIndex k = i ∧ lineDest k = BitVec.ofNat 3 i) ∧ ∀ k ∈ buttonLines, lineIndex k ≠ i := by
  decide

/-- Lines L6..L10 are the button lines, with Lk at bit k - 6. -/
theorem exists_buttonLine : ∀ i : Fin 11, 6 ≤ i.val →
    (∃ k ∈ buttonLines, lineIndex k = i ∧ lineDest k = BitVec.ofNat 3 (i - 6)) ∧
      ∀ k ∈ fretLines, lineIndex k ≠ i := by
  decide

/-! ## The packing of lines, bit by bit -/

/-- A bit to which no line goes is kept. -/
theorem packLines_getLsbD_of_forall_ne {ks : List Line} (l : Lines) (v : Byte) {j : Nat}
    (h : ∀ k ∈ ks, j ≠ (lineDest k).toNat) : (packLines ks l v).getLsbD j = v.getLsbD j := by
  induction ks generalizing v with
  | nil => rfl
  | cons k ks ih =>
    obtain ⟨hk, hks⟩ := List.forall_mem_cons.mp h
    rw [packLines_cons, ih _ hks, setBit_getLsbD_of_ne _ _ hk]

/-- Where no two lines go to one bit, the bit of each line is 1 exactly when the line reads `High`. -/
theorem packLines_getLsbD_of_mem {ks : List Line} (hks : (ks.map lineDest).Nodup) (l : Lines) (v : Byte)
    {k : Line} (hk : k ∈ ks) : (packLines ks l v).getLsbD (lineDest k).toNat = (readLine l k == .high) := by
  induction ks generalizing v with
  | nil => cases hk
  | cons m ks ih =>
    rw [List.map_cons, List.nodup_cons] at hks
    obtain ⟨hm, htail⟩ := hks
    rw [packLines_cons]
    obtain rfl | hk := List.mem_cons.mp hk
    · have hne : ∀ k' ∈ ks, (lineDest k).toNat ≠ (lineDest k').toNat := fun k' hk' heq =>
        hm (List.mem_map.mpr ⟨k', hk', (BitVec.eq_of_toNat_eq heq).symm⟩)
      rw [packLines_getLsbD_of_forall_ne l _ hne, setBit_getLsbD_same, lineBit_beq_one]
    · exact ih htail _ hk

/-- The packing depends on the lines' bits alone. -/
theorem packLines_congr {ks : List Line} {l l' : Lines} (v : Byte)
    (h : ∀ k ∈ ks, lineBit (readLine l k) = lineBit (readLine l' k)) : packLines ks l v = packLines ks l' v := by
  induction ks generalizing v with
  | nil => rfl
  | cons k ks ih =>
    obtain ⟨hk, hks⟩ := List.forall_mem_cons.mp h
    rw [packLines_cons, packLines_cons, hk, ih _ hks]

/-- A failed line acts on its own bit alone: any other result of it leaves the same bits but that one. -/
theorem packLines_set_fail {ks : List Line} (hks : (ks.map lineDest).Nodup) (l : Lines) (x : LineRead) (v : Byte)
    {k : Line} (hk : k ∈ ks) :
    packLines ks (l.set (lineIndex k) .fail) v =
      setBit (packLines ks (l.set (lineIndex k) x) v) (lineDest k) false := by
  apply BitVec.eq_of_getLsbD_eq
  intro j _
  by_cases hj : j = (lineDest k).toNat
  · subst hj
    rw [setBit_getLsbD_same, packLines_getLsbD_of_mem hks _ _ hk, readLine_set, if_pos rfl]
    rfl
  rw [setBit_getLsbD_of_ne _ _ hj]
  by_cases hex : ∃ m ∈ ks, j = (lineDest m).toNat
  · obtain ⟨m, hm, rfl⟩ := hex
    have hne : lineIndex m ≠ lineIndex k := fun h => hj (by rw [lineIndex_injective h])
    rw [packLines_getLsbD_of_mem hks _ _ hm, packLines_getLsbD_of_mem hks _ _ hm, readLine_set, readLine_set,
      if_neg hne, if_neg hne]
  · have hnone : ∀ m ∈ ks, j ≠ (lineDest m).toNat := fun m hm h => hex ⟨m, hm, h⟩
    rw [packLines_getLsbD_of_forall_ne _ _ hnone, packLines_getLsbD_of_forall_ne _ _ hnone]

/-! ## A word as the sum of its bits -/

/-- The low `n` bits of a word are the sum of its bits below `n`, each shifted to its place. -/
theorem toNat_mod_two_pow_eq_sum {w : Nat} (v : BitVec w) (n : Nat) :
    v.toNat % 2 ^ n = ∑ i : Fin n, (v.getLsbD i).toNat <<< i.val := by
  induction n with
  | zero => simp [Nat.mod_one]
  | succ n ih =>
    have hbit : (v.getLsbD n).toNat <<< n = 2 ^ n * (v.toNat / 2 ^ n % 2) := by
      rw [← BitVec.testBit_toNat, Nat.toNat_testBit, Nat.shiftLeft_eq, Nat.mul_comm]
    rw [Fin.sum_univ_castSucc, Nat.mod_pow_succ, ih]
    simp only [Fin.val_castSucc, Fin.val_last, hbit]

/-- A word whose bits from `n` on are 0 is below 2^`n`. -/
theorem toNat_lt_of_extractLsb'_eq_zero {w : Nat} {v : BitVec w} {n len : Nat} (hw : w ≤ n + len)
    (h : v.extractLsb' n len = 0#len) : v.toNat < 2 ^ n := by
  apply Nat.lt_pow_two_of_testBit
  intro j hj
  rw [BitVec.testBit_toNat]
  by_cases hjw : j < w
  · have hbit := congrArg (fun x => x.getLsbD (j - n)) h
    have hlt : j - n < len := by omega
    simpa [BitVec.getLsbD_extractLsb', hlt, Nat.add_sub_cancel' hj] using hbit
  · exact BitVec.getLsbD_of_ge v j (Nat.le_of_not_lt hjw)

/-- A word whose bits from `n` on are 0 is the sum of its bits below `n`. -/
theorem toNat_eq_sum_of_extractLsb'_eq_zero {w : Nat} {v : BitVec w} {n len : Nat} (hw : w ≤ n + len)
    (h : v.extractLsb' n len = 0#len) : v.toNat = ∑ i : Fin n, (v.getLsbD i).toNat <<< i.val := by
  rw [← toNat_mod_two_pow_eq_sum, Nat.mod_eq_of_lt (toNat_lt_of_extractLsb'_eq_zero hw h)]

/-! ## The refreshed report (40_sampler.md R93, R94) -/

theorem refreshReport_eq (l : Lines) (adc : Half) (r : Report) :
    refreshReport l adc r =
      { whammy := adc, frets := packLines fretLines l r.frets, buttons := packLines buttonLines l r.buttons } := rfl

@[simp] theorem refreshReport_whammy (l : Lines) (adc : Half) (r : Report) :
    (refreshReport l adc r).whammy = adc := rfl

@[simp] theorem refreshReport_frets (l : Lines) (adc : Half) (r : Report) :
    (refreshReport l adc r).frets = packLines fretLines l r.frets := rfl

@[simp] theorem refreshReport_buttons (l : Lines) (adc : Half) (r : Report) :
    (refreshReport l adc r).buttons = packLines buttonLines l r.buttons := rfl

/-- The refreshed report depends on the lines' bits alone. -/
theorem refreshReport_congr {l l' : Lines} (adc : Half) (r : Report)
    (h : ∀ k, lineBit (readLine l k) = lineBit (readLine l' k)) :
    refreshReport l adc r = refreshReport l' adc r := by
  rw [refreshReport_eq, refreshReport_eq, packLines_congr _ fun k _ => h k, packLines_congr _ fun k _ => h k]

/-- Line Lk, k = 0..5, is bit k of the refreshed `frets`. -/
theorem refreshReport_frets_getLsbD (l : Lines) (adc : Half) (r : Report) {i : Fin 11} (hi : i.val ≤ 5) :
    (refreshReport l adc r).frets.getLsbD i = (l[i] == .high) := by
  obtain ⟨⟨k, hk, rfl, hdest⟩, -⟩ := exists_fretLine i hi
  have hbit := packLines_getLsbD_of_mem fretLines_dest_nodup l r.frets hk
  rwa [hdest, BitVec.toNat_ofNat, Nat.mod_eq_of_lt (by omega)] at hbit

/-- Line Lk, k = 6..10, is bit k - 6 of the refreshed `buttons`. -/
theorem refreshReport_buttons_getLsbD (l : Lines) (adc : Half) (r : Report) {i : Fin 11} (hi : 6 ≤ i.val) :
    (refreshReport l adc r).buttons.getLsbD (i - 6) = (l[i] == .high) := by
  obtain ⟨⟨k, hk, rfl, hdest⟩, -⟩ := exists_buttonLine i hi
  have hbit := packLines_getLsbD_of_mem buttonLines_dest_nodup l r.buttons hk
  rwa [hdest, BitVec.toNat_ofNat, Nat.mod_eq_of_lt (by omega)] at hbit

/-- 40_sampler.md R94: `frets` after a refresh is a sum over the fret lines. -/
theorem refreshReport_frets_toNat (l : Lines) (adc : Half) {r : Report} (hr : r.UnusedZero) :
    (refreshReport l adc r).frets.toNat = ∑ i : Fin 6, (l[i.val] == .high).toNat <<< i.val := by
  have hz := (hr.of_sameUnused (refreshReport_sameUnused l adc r)).1
  rw [toNat_eq_sum_of_extractLsb'_eq_zero (by decide) hz]
  refine Finset.sum_congr rfl fun i _ => congrArg (fun b => Bool.toNat b <<< i.val) ?_
  exact refreshReport_frets_getLsbD l adc r (i := i.castLE (by decide)) (Nat.le_of_lt_succ i.isLt)

/-- 40_sampler.md R94: `buttons` after a refresh is a sum over the button lines. -/
theorem refreshReport_buttons_toNat (l : Lines) (adc : Half) {r : Report} (hr : r.UnusedZero) :
    (refreshReport l adc r).buttons.toNat = ∑ j : Fin 5, (l[j.val + 6] == .high).toNat <<< j.val := by
  have hz := (hr.of_sameUnused (refreshReport_sameUnused l adc r)).2
  rw [toNat_eq_sum_of_extractLsb'_eq_zero (by decide) hz]
  refine Finset.sum_congr rfl fun j _ => congrArg (fun b => Bool.toNat b <<< j.val) ?_
  exact refreshReport_buttons_getLsbD l adc r (i := j.addNat 6) (Nat.le_add_left 6 j)

/-- Of a report with its unused bits 0, a refresh leaves nothing (40_sampler.md R93). -/
theorem refreshReport_eq_of_unusedZero (l : Lines) (adc : Half) {r r' : Report} (hr : r.UnusedZero)
    (hr' : r'.UnusedZero) : refreshReport l adc r = refreshReport l adc r' := by
  have hfrets : packLines fretLines l r.frets = packLines fretLines l r'.frets :=
    BitVec.eq_of_toNat_eq ((refreshReport_frets_toNat l adc hr).trans (refreshReport_frets_toNat l adc hr').symm)
  have hbuttons : packLines buttonLines l r.buttons = packLines buttonLines l r'.buttons :=
    BitVec.eq_of_toNat_eq ((refreshReport_buttons_toNat l adc hr).trans (refreshReport_buttons_toNat l adc hr').symm)
  rw [refreshReport_eq, refreshReport_eq, hfrets, hbuttons]

/-! ## `REFRESH` (40_sampler.md R90 to R94) -/

/-- `REFRESH` completes from every state. -/
theorem exec_refresh (s : State) :
    exec .refresh s = .next (s.popLines.withReport (refreshReport s.nextLines s.adcSample s.report)) := rfl

/-- Settles O25: the loops of `packLines` over the lines, written out. -/
theorem refreshSamplesEveryInput : Obligations.RefreshSamplesEveryInput := by
  unfold Obligations.RefreshSamplesEveryInput
  refine fun s => ⟨rfl, _, exec_refresh s, rfl, ?_, ?_, refreshReport_whammy _ _ _⟩
  · simp only [State.withReport_report, refreshReport_frets, fretLines, packLines_cons, packLines_nil, lineBit_beq_one]
    rfl
  · simp only [State.withReport_report, refreshReport_buttons, buttonLines, packLines_cons, packLines_nil,
      lineBit_beq_one]
    rfl

/-- The bit of a line as R94 writes it. -/
theorem ite_high_eq_toNat (r : LineRead) : (if r = .high then 1 else 0) = (r == .high).toNat := by
  cases r <;> rfl

/-- Settles O26: each line is one bit of the report, and a field with its unused bits 0 is the sum of its other bits. -/
theorem refreshIsFunctionOfInputs : Obligations.RefreshIsFunctionOfInputs := by
  unfold Obligations.RefreshIsFunctionOfInputs
  intro s hs
  simp only [ite_high_eq_toNat, Bool.toNat_eq_one, Bool.decide_eq_true]
  refine ⟨_, exec_refresh s, ?_, ?_, fun k hk => ?_, fun k hk => ?_, refreshReport_whammy _ _ _,
    hs.of_sameUnused (refreshReport_sameUnused _ _ _)⟩
  · rw [State.withReport_report, refreshReport_frets_toNat _ _ hs, Fin.sum_univ_six]
    rfl
  · rw [State.withReport_report, refreshReport_buttons_toNat _ _ hs, Fin.sum_univ_five]
    rfl
  · exact refreshReport_frets_getLsbD _ _ _ hk
  · exact refreshReport_buttons_getLsbD _ _ _ hk

/-- Settles O27: with its unused bits 0, the report before a refresh leaves nothing in the report after it. -/
theorem refreshTwiceGivesSameReport : Obligations.RefreshTwiceGivesSameReport := by
  unfold Obligations.RefreshTwiceGivesSameReport
  intro s u hs hu hlines hsample
  refine ⟨_, _, exec_refresh s, exec_refresh u, ?_⟩
  rw [State.withReport_report, State.withReport_report, hlines, hsample]
  exact refreshReport_eq_of_unusedZero _ _ hu.report hs.report

/-! ## A failed line (40_sampler.md R84) -/

/-- `REFRESH` with the line results `l` at the head of their queue. -/
theorem exec_refresh_of_lines (s : State) (l : Lines) (q : List Lines) :
    exec .refresh (s.withInputs { s.inputs with lines := l :: q }) =
      .next ((s.withInputs { s.inputs with lines := q }).withReport (refreshReport l s.adcSample s.report)) := rfl

/-- A failed line has the bit of a low one. -/
theorem lineBit_readLine_set_fail (l : Lines) (i : Fin 11) (k : Line) :
    lineBit (readLine (l.set i .fail) k) = lineBit (readLine (l.set i .low) k) := by
  rw [readLine_set, readLine_set]
  split <;> rfl

/-- A line whose number is not in `ks` does not count. -/
theorem packLines_set_of_forall_ne {ks : List Line} {i : Fin 11} (l : Lines) (x y : LineRead) (v : Byte)
    (h : ∀ k ∈ ks, lineIndex k ≠ i) : packLines ks (l.set i x) v = packLines ks (l.set i y) v := by
  refine packLines_congr v fun k hk => ?_
  rw [readLine_set, readLine_set, if_neg (h k hk), if_neg (h k hk)]

/-- Settles O28: a failed line has the bit of a low one, and no other line goes to its bit. -/
theorem failedLineReadsAsReleased : Obligations.FailedLineReadsAsReleased := by
  unfold Obligations.FailedLineReadsAsReleased
  intro s l q i x
  refine ⟨_, _, _, exec_refresh_of_lines s _ q, exec_refresh_of_lines s _ q, exec_refresh_of_lines s _ q, ?_, rfl,
    fun hi => ?_, fun hi => ?_⟩
  · rw [refreshReport_congr _ _ (lineBit_readLine_set_fail l i)]
  · obtain ⟨⟨k, hk, rfl, hdest⟩, hother⟩ := exists_fretLine i hi
    rw [← hdest]
    exact ⟨packLines_set_fail fretLines_dest_nodup l x _ hk, packLines_set_of_forall_ne l _ _ _ hother⟩
  · obtain ⟨⟨k, hk, rfl, hdest⟩, hother⟩ := exists_buttonLine i hi
    rw [← hdest]
    exact ⟨packLines_set_fail buttonLines_dest_nodup l x _ hk, packLines_set_of_forall_ne l _ _ _ hother⟩

end Sys2Proof.Machine

namespace Sys2Proof.Machine

/-! ## Sequences of bit writes -/

/-- `set_bit` with the value that the bit holds changes nothing. -/
theorem setBit_of_getLsbD {v : Byte} {i : BitVec 3} {b : Bool} (h : v.getLsbD i.toNat = b) : setBit v i b = v := by
  subst h
  apply BitVec.eq_of_getLsbD_eq
  intro j _
  by_cases hj : j = i.toNat
  · rw [hj, setBit_getLsbD_same]
  · rw [setBit_getLsbD_of_ne _ _ hj]

/-- `set_bit` applied for each index and value of `ws`, in order: what a sequence of `SETF` commands does to `frets`
(`execAll_setf`) and a sequence of `SETB` commands to `buttons` (`execAll_setb`). -/
def setBits (ws : List (BitVec 3 × Bool)) (v : Byte) : Byte := ws.foldl (fun v w => setBit v w.1 w.2) v

@[simp] theorem setBits_nil (v : Byte) : setBits [] v = v := rfl

@[simp] theorem setBits_cons (w : BitVec 3 × Bool) (ws : List (BitVec 3 × Bool)) (v : Byte) :
    setBits (w :: ws) v = setBits ws (setBit v w.1 w.2) := rfl

/-- A bit that no write names is kept. -/
theorem setBits_getLsbD_of_forall_ne {ws : List (BitVec 3 × Bool)} (v : Byte) {j : Nat}
    (h : ∀ w ∈ ws, w.1.toNat ≠ j) : (setBits ws v).getLsbD j = v.getLsbD j := by
  induction ws generalizing v with
  | nil => rfl
  | cons w ws ih =>
    obtain ⟨hw, hws⟩ := List.forall_mem_cons.mp h
    rw [setBits_cons, ih _ hws, setBit_getLsbD_of_ne _ _ hw.symm]

/-- Where no two writes name one bit, each bit named holds the value written. -/
theorem setBits_getLsbD_of_mem {ws : List (BitVec 3 × Bool)} (hws : (ws.map Prod.fst).Nodup) (v : Byte)
    {w : BitVec 3 × Bool} (hw : w ∈ ws) : (setBits ws v).getLsbD w.1.toNat = w.2 := by
  induction ws generalizing v with
  | nil => cases hw
  | cons x ws ih =>
    rw [List.map_cons, List.nodup_cons] at hws
    obtain ⟨hx, htail⟩ := hws
    rw [setBits_cons]
    obtain rfl | hw := List.mem_cons.mp hw
    · have hne : ∀ y ∈ ws, y.1.toNat ≠ w.1.toNat := fun y hy heq =>
        hx (List.mem_map.mpr ⟨y, hy, BitVec.eq_of_toNat_eq heq⟩)
      rw [setBits_getLsbD_of_forall_ne _ hne, setBit_getLsbD_same]
    · exact ih htail _ hw

/-- Bits above every index written are kept. -/
theorem setBits_extractLsb'_of_lt {ws : List (BitVec 3 × Bool)} (v : Byte) {start : Nat} (len : Nat)
    (h : ∀ w ∈ ws, w.1.toNat < start) : (setBits ws v).extractLsb' start len = v.extractLsb' start len := by
  apply BitVec.eq_of_getLsbD_eq
  intro j _
  have hne : ∀ w ∈ ws, w.1.toNat ≠ start + j := fun w hw => by have := h w hw; omega
  simp only [BitVec.getLsbD_extractLsb', setBits_getLsbD_of_forall_ne v hne]

/-! ## Writing the low bits in order -/

/-- Bits 0, 1, ... of a field, each with its value `b i`, in order: the writes of the expansions of 30_encoding.md
R67. -/
def bitWrites {n : Nat} (b : Fin n → Bool) : List (BitVec 3 × Bool) :=
  (List.finRange n).map fun i : Fin n => (BitVec.ofNat 3 i, b i)

section

variable {n : Nat} (b : Fin n → Bool)

/-- An index of a byte's bit is its own number. -/
theorem toNat_ofNat_index (hn : n ≤ 8) (i : Fin n) : (BitVec.ofNat 3 i).toNat = i := by
  rw [BitVec.toNat_ofNat, Nat.mod_eq_of_lt (by omega)]

theorem bitWrites_index_lt (hn : n ≤ 8) : ∀ w ∈ bitWrites b, w.1.toNat < n := by
  rw [bitWrites, List.forall_mem_map]
  intro i _
  rw [toNat_ofNat_index hn]
  exact i.isLt

theorem bitWrites_index_nodup (hn : n ≤ 8) : ((bitWrites b).map Prod.fst).Nodup := by
  rw [bitWrites, List.map_map]
  refine (List.nodup_finRange n).map fun i j hij => Fin.ext ?_
  rw [← toNat_ofNat_index hn i, ← toNat_ofNat_index hn j]
  exact congrArg BitVec.toNat hij

/-- Each bit written in order holds its value. -/
theorem setBits_bitWrites_getLsbD (hn : n ≤ 8) (v : Byte) (i : Fin n) :
    (setBits (bitWrites b) v).getLsbD i = b i := by
  have hmem : (BitVec.ofNat 3 i, b i) ∈ bitWrites b := List.mem_map.mpr ⟨i, List.mem_finRange i, rfl⟩
  have hbit := setBits_getLsbD_of_mem (bitWrites_index_nodup b hn) v hmem
  rwa [toNat_ofNat_index hn] at hbit

/-- A byte whose bits from `n` on are 0 holds `m` after the writes of the `n` bits of `m`: both are the sum of
those bits. -/
theorem setBits_bitWrites_eq_setWidth (m : BitVec n) {v : Byte} {len : Nat} (hn : n ≤ 8) (hlen : 8 ≤ n + len)
    (hv : v.extractLsb' n len = 0#len) :
    setBits (bitWrites fun i : Fin n => m.getLsbD i) v = m.setWidth 8 := by
  have hz : (setBits (bitWrites fun i : Fin n => m.getLsbD i) v).extractLsb' n len = 0#len := by
    rw [setBits_extractLsb'_of_lt _ _ (bitWrites_index_lt _ hn), hv]
  apply BitVec.eq_of_toNat_eq
  calc (setBits (bitWrites fun i : Fin n => m.getLsbD i) v).toNat
    _ = ∑ i : Fin n, (m.getLsbD i).toNat <<< i.val := by
      simp only [toNat_eq_sum_of_extractLsb'_eq_zero hlen hz, setBits_bitWrites_getLsbD _ hn]
    _ = m.toNat := by rw [← toNat_mod_two_pow_eq_sum, Nat.mod_eq_of_lt m.isLt]
    _ = (m.setWidth 8).toNat := (BitVec.toNat_setWidth_of_le hn).symm

end

/-! ## The mutation ports (41_encoder.md R110 to R112) -/

theorem exec_setf {idx : BitVec 3} (h : idx.toNat < 6) (val : Bool) (s : State) :
    exec (.setf idx val) s = .next (s.withReport (s.report.withFrets (setBit s.report.frets idx val))) :=
  if_pos h

theorem exec_setf_of_not_lt {idx : BitVec 3} (h : ¬idx.toNat < 6) (val : Bool) (s : State) :
    exec (.setf idx val) s = refuse (encodeWord (.setf idx val)) .fretIndex s :=
  if_neg h

theorem exec_setb {idx : BitVec 3} (h : idx.toNat < 5) (val : Bool) (s : State) :
    exec (.setb idx val) s = .next (s.withReport (s.report.withButtons (setBit s.report.buttons idx val))) :=
  if_pos h

theorem exec_setb_of_not_lt {idx : BitVec 3} (h : ¬idx.toNat < 5) (val : Bool) (s : State) :
    exec (.setb idx val) s = refuse (encodeWord (.setb idx val)) .buttonIndex s :=
  if_neg h

theorem exec_wrwh (v : Half) (s : State) : exec (.wrwh v) s = .next (s.withReport (s.report.withWhammy v)) := rfl

/-- Issuing the command of a well-formed instruction runs the instruction. -/
theorem issue_encode {i : Instr} (hi : i.WellFormed) (s : State) : issue (encode i) s = exec i s := by
  rw [issue, (decodeOfEncodeIsInstruction i hi).1]

/-- The number that the word of a port is made of. -/
theorem toNat_append_idx_val (op : BitVec 4) (idx : BitVec 3) (val : Bool) :
    (op ++ idx ++ BitVec.ofBool val).toNat = 16 * op.toNat + 2 * idx.toNat + val.toNat := by
  rw [BitVec.toNat_append, BitVec.toNat_append, BitVec.toNat_ofBool, ← Nat.shiftLeft_add_eq_or_of_lt val.toNat_lt,
    ← Nat.shiftLeft_add_eq_or_of_lt idx.isLt, Nat.shiftLeft_eq, Nat.shiftLeft_eq]
  omega

/-- Settles O21: `SETF` is `set_bit` on `frets` below index 6, and a refusal from there on. -/
theorem setfWritesOneFretBit : Obligations.SetfWritesOneFretBit := by
  unfold Obligations.SetfWritesOneFretBit
  intro idx val s
  refine ⟨toNat_append_idx_val _ idx val, fun h => ?_, fun h => exec_setf_of_not_lt (Nat.not_lt.mpr h) val s⟩
  refine ⟨_, exec_setf (Nat.lt_succ_of_le h) val s, rfl, setBit_getLsbD s.report.frets idx val, fun hval => ?_⟩
  rw [State.withReport_report, setBit_of_getLsbD hval]
  rfl

/-- Settles O22: `SETB` is `set_bit` on `buttons` below index 5, and a refusal from there on. -/
theorem setbWritesOneButtonBit : Obligations.SetbWritesOneButtonBit := by
  unfold Obligations.SetbWritesOneButtonBit
  intro idx val s
  refine ⟨toNat_append_idx_val _ idx val, fun h => ?_, fun h => exec_setb_of_not_lt (Nat.not_lt.mpr h) val s⟩
  refine ⟨_, exec_setb (Nat.lt_succ_of_le h) val s, rfl, setBit_getLsbD s.report.buttons idx val, fun hval => ?_⟩
  rw [State.withReport_report, setBit_of_getLsbD hval]
  rfl

/-- Settles O23: word 0x50 with `dat` is decoded to `WRWH`, which replaces `whammy` alone. -/
theorem wrwhWritesWhammyVerbatim : Obligations.WrwhWritesWhammyVerbatim := by
  unfold Obligations.WrwhWritesWhammyVerbatim
  intro imm16 s
  have hissue : issue (encode (.wrwh imm16)) s = exec (.wrwh imm16) s := issue_encode trivial s
  exact ⟨rfl, _, exec_wrwh imm16 s, hissue.trans (exec_wrwh imm16 s), rfl, rfl⟩

/-! ## Sequences of commands -/

@[simp] theorem execAll_nil (s : State) : execAll [] s = .next s := rfl

/-- A sequence goes on after a command that completes. -/
theorem execAll_cons_of_next {i : Instr} {s t : State} (is : List Instr) (h : exec i s = .next t) :
    execAll (i :: is) s = execAll is t := by
  rw [execAll, h]

/-- A sequence that completes is its first command and then the others. -/
theorem exec_of_execAll_cons {i : Instr} {is : List Instr} {s u : State} (h : execAll (i :: is) s = .next u) :
    ∃ t, exec i s = .next t ∧ execAll is t = .next u := by
  rw [execAll] at h
  cases hi : exec i s with
  | next t => exact ⟨t, rfl, by rwa [hi] at h⟩
  | fault r => cases r
  | refused r =>
    rw [hi] at h
    cases h

/-- A sequence of legal `SETF` commands writes their bits of `frets`, in order. -/
theorem execAll_setf {ws : List (BitVec 3 × Bool)} (s : State) (h : ∀ w ∈ ws, w.1.toNat < 6) :
    execAll (ws.map fun w => .setf w.1 w.2) s =
      .next (s.withReport (s.report.withFrets (setBits ws s.report.frets))) := by
  induction ws generalizing s with
  | nil => rfl
  | cons w ws ih =>
    obtain ⟨hw, hws⟩ := List.forall_mem_cons.mp h
    rw [List.map_cons, execAll_cons_of_next _ (exec_setf hw w.2 s), ih _ hws]
    rfl

/-- A sequence of legal `SETB` commands writes their bits of `buttons`, in order. -/
theorem execAll_setb {ws : List (BitVec 3 × Bool)} (s : State) (h : ∀ w ∈ ws, w.1.toNat < 5) :
    execAll (ws.map fun w => .setb w.1 w.2) s =
      .next (s.withReport (s.report.withButtons (setBits ws s.report.buttons))) := by
  induction ws generalizing s with
  | nil => rfl
  | cons w ws ih =>
    obtain ⟨hw, hws⟩ := List.forall_mem_cons.mp h
    rw [List.map_cons, execAll_cons_of_next _ (exec_setb hw w.2 s), ih _ hws]
    rfl

/-- Settles O33: by the bits that a sequence of writes to one field names. -/
theorem portSequencesAreIndependent : Obligations.PortSequencesAreIndependent := by
  unfold Obligations.PortSequencesAreIndependent
  refine ⟨fun ws s h => ?_, fun ws s h => ?_, fun v s => ⟨_, exec_wrwh v s, rfl, rfl⟩⟩
  · exact ⟨_, execAll_setb s fun w hw => Nat.lt_succ_of_le (h w hw), rfl, rfl,
      fun _ => setBits_getLsbD_of_forall_ne s.report.buttons⟩
  · exact ⟨_, execAll_setf s fun w hw => Nat.lt_succ_of_le (h w hw), rfl, rfl,
      fun _ => setBits_getLsbD_of_forall_ne s.report.frets⟩

/-- Settles O34: the six writes name each bit once, and none of bits 7:6. -/
theorem fretBitsRoundTrip : Obligations.FretBitsRoundTrip := by
  unfold Obligations.FretBitsRoundTrip
  intro b s hs
  have hlt : ∀ w ∈ bitWrites b, w.1.toNat < 6 := bitWrites_index_lt b (by decide)
  refine ⟨_, execAll_setf s hlt, setBits_bitWrites_getLsbD b (by decide) s.report.frets, ?_⟩
  exact (setBits_extractLsb'_of_lt s.report.frets 2 hlt).trans hs.1

/-- Settles O35: `SETFRETS` and `SETBUTTONS` write every bit of `m` in order, and `SEND_CYCLE` reads the image of the
refreshed report. -/
theorem pseudoInstructionsSetWholeField : Obligations.PseudoInstructionsSetWholeField := by
  unfold Obligations.PseudoInstructionsSetWholeField
  refine ⟨fun m s hs => ⟨rfl, ?_⟩, fun m s hs => ⟨rfl, ?_⟩, fun s => ⟨rfl, _, _, exec_refresh s, ?_, rfl⟩⟩
  · exact ⟨_, execAll_setf (ws := bitWrites fun i : Fin 6 => m.getLsbD i) s (bitWrites_index_lt _ (by decide)),
      setBits_bitWrites_eq_setWidth m (by decide) (by decide) hs.1⟩
  · exact ⟨_, execAll_setb (ws := bitWrites fun j : Fin 5 => m.getLsbD j) s (bitWrites_index_lt _ (by decide)),
      setBits_bitWrites_eq_setWidth m (by decide) (by decide) hs.2⟩
  · rw [expand, execAll_cons_of_next _ (exec_refresh s), execAll_cons_of_next _ (exec_readReport _), execAll_nil]

/-! ## The returned bytes (41_encoder.md R114, R115, R117) -/

/-- Settles O1: the report after reset is the idle one, whose image is evaluated. -/
theorem resetReportIsIdle : Obligations.ResetReportIsIdle := by
  unfold Obligations.ResetReportIsIdle
  have himage : Report.idle.image = #v[0#8, 0#8, 0#8, 0#8] := by decide
  exact ⟨fun _ _ => ⟨rfl, himage⟩, himage⟩

/-- Settles O24: the bytes are the image of a report that the read does not change. -/
theorem readReportReturnsImage : Obligations.ReadReportReturnsImage := by
  unfold Obligations.ReadReportReturnsImage
  intro s
  exact ⟨rfl, s.withRpt s.report.image, s.report.image, exec_readReport s, rfl, rfl, rfl, rfl, rfl,
    memRead_image s.report, exec_readReport _, State.Inv.report⟩

/-- No command but `READ_REPORT` changes the returned bytes. -/
theorem exec_rpt {i : Instr} {s t : State} (h : exec i s = .next t) (hi : i ≠ .readReport) : t.rpt = s.rpt := by
  obtain ⟨-, rfl⟩ | ⟨rfl, -⟩ | ⟨idx, val, -, -, rfl⟩ | ⟨idx, val, -, -, rfl⟩ | ⟨v, -, rfl⟩ := exec_next_cases h
  · rfl
  · exact absurd rfl hi
  · rfl
  · rfl
  · rfl

theorem execAll_rpt {is : List Instr} {s u : State} (h : execAll is s = .next u) (his : ∀ i ∈ is, i ≠ .readReport) :
    u.rpt = s.rpt := by
  induction is generalizing s with
  | nil => cases h; rfl
  | cons i is ih =>
    obtain ⟨hi, his⟩ := List.forall_mem_cons.mp his
    obtain ⟨t, ht, hu⟩ := exec_of_execAll_cons h
    rw [ih hu his, exec_rpt ht hi]

/-- No command changes the record of sends. -/
theorem exec_sent {i : Instr} {s t : State} (h : exec i s = .next t) : t.sent = s.sent := by
  obtain ⟨-, rfl⟩ | ⟨-, rfl⟩ | ⟨idx, val, -, -, rfl⟩ | ⟨idx, val, -, -, rfl⟩ | ⟨v, -, rfl⟩ := exec_next_cases h <;>
    rfl

/-- A step adds to the record of sends or leaves it: only the send adds. -/
theorem StepCase.sent_prefix {s : State} {o : Result} (h : StepCase s o) : s.sent <+: (stateAfter s o).sent := by
  cases h with
  | converter | poll | refresh | reserved => exact List.prefix_rfl
  | send => exact List.prefix_append _ _
  | command _ _ i t _ he => exact (exec_sent he).symm ▸ List.prefix_rfl

/-- Settles O36: the commands after the read leave `rpt`, and a step never takes a send back. -/
theorem returnedBytesAreCopy : Obligations.ReturnedBytesAreCopy := by
  unfold Obligations.ReturnedBytesAreCopy
  constructor
  · intro is s t u hread his hu
    obtain rfl : s.withRpt s.report.image = t := Host.Outcome.next.inj ((exec_readReport s).symm.trans hread)
    exact execAll_rpt hu his
  · intro s t h
    have hcase := (step_stepCase s).sent_prefix
    rwa [h] at hcase

end Sys2Proof.Machine

namespace Sys2Proof.Machine

/-! ## The steps of normal operation (42_orchestration.md R141, R147) -/

section

variable {s : State} (ha : s.nextAgent = .controller) (hi : s.Normal)
include ha hi

theorem step_poll (hp : s.phase = .poll) :
    step s = .next (s.popAgent.popPoll.withPhase (if s.popAgent.nextPoll then .refresh else .poll)) := by
  rw [step_controller ha hi, controllerStep_poll (s := s.popAgent) hp]

theorem step_refresh (hp : s.phase = .refresh) :
    step s = .next ((s.popAgent.popLines.withReport
      (refreshReport s.popAgent.nextLines s.adcSample s.report)).withPhase .send) := by
  rw [step_controller ha hi, controllerStep_refresh (s := s.popAgent) hp]
  rfl

theorem step_send (hp : s.phase = .send) :
    step s = .next (transportSend (s.popAgent.withRpt s.report.image)) := by
  rw [step_controller ha hi, controllerStep_send (s := s.popAgent) hp]
  rfl

end

/-- What a send does after a read that returned `b`: `b` is offered with the drawn answer, which changes nothing
else, and the phase is `Poll` (42_orchestration.md R141, R144). -/
theorem transportSend_withRpt (s : State) (b : Image) :
    transportSend (s.withRpt b) =
      { s.popSend with
        rpt := some b, sent := s.sent ++ [{ bytes := b, result := s.nextSend }], phase := .poll } := rfl

/-- Settles O41: by the phase that the controller acts in. -/
theorem controllerLoopSteps : Obligations.ControllerLoopSteps := by
  unfold Obligations.ControllerLoopSteps
  intro s ha hi
  refine ⟨step_poll ha hi, step_refresh ha hi, fun hp => ?_⟩
  rw [step_send ha hi hp, transportSend_withRpt]
  rfl

/-! ## Steps of the converter in a run (40_sampler.md R86; 42_orchestration.md section 1) -/

/-- A scripted turn uses no free value, so the line draw after it is the one before it. -/
theorem popAgent_nextLines_of_cons {s : State} {a : Agent} {q : List Agent} (h : s.inputs.agents = a :: q) :
    s.popAgent.nextLines = s.nextLines := by
  rw [(nextAgent_of_cons s a q h).2]
  rfl

theorem popAgent_agents_of_cons {s : State} {a : Agent} {q : List Agent} (h : s.inputs.agents = a :: q) :
    s.popAgent.inputs.agents = q := by
  rw [(nextAgent_of_cons s a q h).2]
  rfl

/-- A scripted turn of the converter changes the sample and the draws to come alone. -/
theorem step_of_converter_cons {s : State} {q : List Agent} (h : s.inputs.agents = .converter :: q) :
    ∃ (v : Half) (e : Inputs), e.agents = q ∧ step s = .next ((s.withAdcSample v).withInputs e) :=
  ⟨_, s.popAgent.popSample.inputs, popAgent_agents_of_cons h, step_converter (nextAgent_of_cons s _ q h).1⟩

/-- So do any number of them, and the run goes on from there. -/
theorem runSteps_of_converters {s : State} (n k : Nat) {q : List Agent}
    (h : s.inputs.agents = List.replicate n .converter ++ q) :
    ∃ (v : Half) (e : Inputs), e.agents = q ∧
      runSteps (k + n) s = runSteps k ((s.withAdcSample v).withInputs e) := by
  induction n generalizing s with
  | zero => exact ⟨s.adcSample, s.inputs, h, rfl⟩
  | succ n ih =>
    obtain ⟨v, e, he, hstep⟩ := step_of_converter_cons h
    obtain ⟨v', e', he', hrun⟩ := ih (s := (s.withAdcSample v).withInputs e) he
    exact ⟨v', e', he', (runSteps_succ_of_next (k + n) hstep).trans hrun⟩

/-- Whatever the converter does before it, a send offers the image of the report that stood when the phase `Send`
began. -/
theorem runSteps_of_converters_send {s : State} (n : Nat) {q : List Agent} (hi : s.Normal) (hp : s.phase = .send)
    (h : s.inputs.agents = List.replicate n .converter ++ .controller :: q) :
    ∃ (t : State) (r : SendResult), runSteps (n + 1) s = .next t ∧ t.report = s.report ∧
      t.sent = s.sent ++ [{ bytes := s.report.image, result := r }] ∧ t.phase = .poll := by
  obtain ⟨v, e, he, hconvert⟩ := runSteps_of_converters n 1 h
  have hsend := step_send (s := (s.withAdcSample v).withInputs e) (nextAgent_of_cons _ _ q he).1 hi hp
  rw [Nat.add_comm n 1, hconvert, runSteps_succ_of_next 0 hsend, runSteps_zero]
  exact ⟨_, _, rfl, rfl, rfl, rfl⟩

/-- Settles O42: the refresh leaves its report to the phase `Send`, and the converter's steps leave it alone. -/
theorem sentBytesAreTheRefreshedReport : Obligations.SentBytesAreTheRefreshedReport := by
  unfold Obligations.SentBytesAreTheRefreshedReport
  intro s n q hi hp hagents
  have hrefresh := step_refresh (nextAgent_of_cons s _ _ hagents).1 hi hp
  rw [popAgent_nextLines_of_cons hagents] at hrefresh
  obtain ⟨u, hstep, hui, hup, huagents, hureport, husent⟩ :
      ∃ u, step s = .next u ∧ u.Normal ∧ u.phase = .send ∧
        u.inputs.agents = List.replicate n .converter ++ .controller :: q ∧
        u.report = refreshReport s.nextLines s.adcSample s.report ∧ u.sent = s.sent :=
    ⟨_, hrefresh, hi, rfl, popAgent_agents_of_cons hagents, rfl, rfl⟩
  obtain ⟨t, r, hrun, hreport, hsent, hphase⟩ := runSteps_of_converters_send n hui hup huagents
  refine ⟨t, r, (runSteps_succ_of_next (n + 1) hstep).trans hrun, hreport.trans hureport, ?_, hphase⟩
  rw [hsent, husent, hreport]

end Sys2Proof.Machine

namespace Sys2Proof.Machine

/-! ## The refusal mark (60_exceptions.md R161, R163) -/

/-- No command that completes changes the mark. -/
theorem exec_refusalMark {i : Instr} {s t : State} (h : exec i s = .next t) : t.refusalMark = s.refusalMark := by
  obtain ⟨-, rfl⟩ | ⟨-, rfl⟩ | ⟨idx, val, -, -, rfl⟩ | ⟨idx, val, -, -, rfl⟩ | ⟨v, -, rfl⟩ := exec_next_cases h <;>
    rfl

/-- A step adds to the mark or leaves it: only a refused word is added. -/
theorem StepCase.refusalMark_prefix {s : State} {o : Result} (h : StepCase s o) :
    s.refusalMark <+: (stateAfter s o).refusalMark := by
  cases h with
  | converter | poll | refresh | send => exact List.prefix_rfl
  | command _ _ i t _ he => exact (exec_refusalMark he).symm ▸ List.prefix_rfl
  | reserved => exact List.prefix_append _ _

theorem stepOn_refusalMark_prefix (s : State) : s.refusalMark <+: (stepOn s).refusalMark :=
  (step_stepCase s).refusalMark_prefix

/-- Nor does any number of steps take a word out of the mark. -/
theorem iterate_stepOn_refusalMark_prefix (s : State) (n : Nat) :
    s.refusalMark <+: (stepOn^[n] s).refusalMark :=
  Function.Iterate.rec (fun t : State => s.refusalMark <+: t.refusalMark) List.prefix_rfl
    (fun t ht => ht.trans (stepOn_refusalMark_prefix t)) n

/-- A word once refused stays in the mark. -/
theorem mem_iterate_stepOn_withRefused (s : State) (cmd : Byte) (n : Nat) :
    cmd ∈ (stepOn^[n] (s.withRefused cmd)).refusalMark := by
  have hmem : cmd ∈ (s.withRefused cmd).refusalMark := by simp
  exact (iterate_stepOn_refusalMark_prefix _ n).subset hmem

/-- What issuing a reserved word answers. -/
theorem issue_of_decode_error {c : Command} {why : Reserved} (h : decode c = .error why) (s : State) :
    issue c s = .refused (.reservedCommand c.cmd why (s.withRefused c.cmd)) := by
  simp only [issue, h, refuse]

/-- Settles O38: the refused step records the word and takes its two draws, and no later step takes it out. -/
theorem reservedWordIsRefused : Obligations.ReservedWordIsRefused := by
  unfold Obligations.ReservedWordIsRefused
  intro s why ha hi hd
  exact ⟨_, (step_harness ha hi).trans (issue_of_decode_error hd _), rfl, rfl, mem_iterate_stepOn_withRefused _ _⟩

end Sys2Proof.Machine

namespace Sys2Proof.Machine

/-! ## What no command changes (40_sampler.md R95; 41_encoder.md R110 to R114) -/

/-- A command that completes changes the report, `rpt` and the draws to come at most. -/
theorem exec_frame {i : Instr} {s t : State} (h : exec i s = .next t) :
    t = { s with report := t.report, rpt := t.rpt, inputs := t.inputs } := by
  obtain ⟨-, rfl⟩ | ⟨-, rfl⟩ | ⟨idx, val, -, -, rfl⟩ | ⟨idx, val, -, -, rfl⟩ | ⟨v, -, rfl⟩ := exec_next_cases h <;>
    rfl

theorem exec_params {i : Instr} {s t : State} (h : exec i s = .next t) : t.params = s.params := by
  rw [exec_frame h]

theorem exec_adcSample {i : Instr} {s t : State} (h : exec i s = .next t) : t.adcSample = s.adcSample := by
  rw [exec_frame h]

theorem exec_issuer {i : Instr} {s t : State} (h : exec i s = .next t) : t.issuer = s.issuer := by
  rw [exec_frame h]

theorem exec_phase {i : Instr} {s t : State} (h : exec i s = .next t) : t.phase = s.phase := by
  rw [exec_frame h]

/-- Only `REFRESH` takes a draw. -/
theorem exec_inputs {i : Instr} {s t : State} (h : exec i s = .next t) (hi : i ≠ .refresh) :
    t.inputs = s.inputs := by
  obtain ⟨rfl, -⟩ | ⟨-, rfl⟩ | ⟨idx, val, -, -, rfl⟩ | ⟨idx, val, -, -, rfl⟩ | ⟨v, -, rfl⟩ := exec_next_cases h
  · exact absurd rfl hi
  · rfl
  · rfl
  · rfl
  · rfl

/-- What a completed `READ_REPORT` leaves. -/
theorem eq_withRpt_of_exec_readReport {s t : State} (h : exec .readReport s = .next t) :
    t = s.withRpt s.report.image :=
  Host.Outcome.next.inj (h.symm.trans (exec_readReport s))

/-- `READ_REPORT` returns the image of the report; every other command leaves `rpt`. -/
theorem exec_rpt_cases {i : Instr} {s t : State} (h : exec i s = .next t) :
    t.rpt = s.rpt ∨ t.rpt = some s.report.image := by
  by_cases hi : i = .readReport
  · subst hi
    rw [eq_withRpt_of_exec_readReport h]
    exact .inr rfl
  · exact .inl (exec_rpt h hi)

/-! ## What no step changes -/

theorem StepCase.params_eq {s : State} {o : Result} (h : StepCase s o) : (stateAfter s o).params = s.params := by
  cases h with
  | converter | poll | refresh | send | reserved => rfl
  | command _ _ i t _ he => exact (exec_params he :)

/-- No step changes a parameter, a refused one included (10_state.md R34). -/
theorem stepOn_params (s : State) : (stepOn s).params = s.params := (step_stepCase s).params_eq

theorem StepCase.issuer_eq {s : State} {o : Result} (h : StepCase s o) : (stateAfter s o).issuer = s.issuer := by
  cases h with
  | converter | poll | refresh | send | reserved => rfl
  | command _ _ i t _ he => exact (exec_issuer he :)

/-- The agent that issues commands leaves `ADC_SAMPLE` (10_state.md R29). -/
theorem StepCase.adcSample_eq {s : State} {o : Result} (h : StepCase s o) (ha : s.nextAgent = .controller) :
    (stateAfter s o).adcSample = s.adcSample := by
  cases h with
  | converter hc => exact absurd (hc.symm.trans ha) (by decide)
  | poll | refresh | send | reserved => rfl
  | command _ _ i t _ he => exact (exec_adcSample he :)

theorem StepCase.sample_lt {s : State} {o : Result} (h : StepCase s o)
    (hs : s.adcSample.toNat < 2 ^ s.params.adcBits) : (stateAfter s o).adcSample.toNat < 2 ^ s.params.adcBits := by
  cases ha : s.nextAgent with
  | controller => rwa [h.adcSample_eq ha]
  | converter =>
    cases h with
    | converter => exact convertedSample_lt _ _
    | poll hc | refresh hc | send hc | command hc | reserved hc => exact absurd (hc.symm.trans ha) (by decide)

/-- A sample below 2^`ADC_BITS` stays below it, over a refused step included. -/
theorem stepOn_sample_lt {s : State} (hs : s.adcSample.toNat < 2 ^ s.params.adcBits) :
    (stepOn s).adcSample.toNat < 2 ^ (stepOn s).params.adcBits := by
  rw [stepOn_params]
  exact (step_stepCase s).sample_lt hs

/-! ## The invariant (10_state.md R25, R29; 41_encoder.md R114) -/

/-- A step returns the image of the report before it, or leaves the returned bytes. -/
theorem StepCase.rpt_cases {s : State} {o : Result} (h : StepCase s o) :
    (stateAfter s o).rpt = s.rpt ∨ (stateAfter s o).rpt = some s.report.image := by
  cases h with
  | converter | poll | refresh | reserved => exact .inl rfl
  | send => exact .inr rfl
  | command _ _ i t _ he => exact (exec_rpt_cases he :)

/-- A step offers the image of the report before it, or leaves the record of sends. -/
theorem StepCase.sent_cases {s : State} {o : Result} (h : StepCase s o) :
    (stateAfter s o).sent = s.sent ∨
      ∃ r, (stateAfter s o).sent = s.sent ++ [{ bytes := s.report.image, result := r }] := by
  cases h with
  | converter | poll | refresh | reserved => exact .inl rfl
  | send => exact .inr ⟨_, rfl⟩
  | command _ _ i t _ he => exact .inl (exec_sent he :)

/-- The image of a report has the report's unused bits at offsets 2 and 3. -/
theorem Report.UnusedZero.image {r : Report} (h : r.UnusedZero) : r.image.UnusedZero := h

/-- Every step keeps the invariant, a refused one included. -/
theorem StepCase.inv {s : State} {o : Result} (h : StepCase s o) (hs : s.Inv) : (stateAfter s o).Inv where
  params := h.params_eq ▸ hs.params
  report := hs.report.of_sameUnused h.sameUnused
  sample := h.params_eq ▸ h.sample_lt hs.sample
  returned := by
    obtain hrpt | hrpt := h.rpt_cases
    · exact hrpt ▸ hs.returned
    · simpa [hrpt] using hs.report.image
  offered := by
    obtain hsent | ⟨r, hsent⟩ := h.sent_cases
    · exact hsent ▸ hs.offered
    · rw [hsent]
      exact List.forall_mem_append.mpr ⟨hs.offered, List.forall_mem_singleton.mpr hs.report.image⟩

theorem State.Inv.stepOn {s : State} (hs : s.Inv) : (stepOn s).Inv := (step_stepCase s).inv hs

/-- Settles O48: a step that answers a next state, or is refused, leads to the state that `stepOn` gives. -/
theorem invariantKeptByEveryStep : Obligations.InvariantKeptByEveryStep := by
  unfold Obligations.InvariantKeptByEveryStep
  exact fun s hs => ⟨fun t h => stepOn_of_next h ▸ hs.stepOn, fun cmd why t h => stepOn_of_reserved h ▸ hs.stepOn⟩

/-! ## Normal operation (42_orchestration.md R146, R147) -/

/-- In normal operation every step answers a next state, in normal operation again. -/
theorem exists_step_next_of_normal {s : State} (hi : s.Normal) : ∃ t, step s = .next t ∧ t.Normal := by
  have hcase := step_stepCase s
  have hissuer := hcase.issuer_eq
  generalize step s = o at hcase hissuer
  cases hcase with
  | converter | poll | refresh | send => exact ⟨_, rfl, hissuer.trans hi⟩
  | command _ hh | reserved _ hh => exact absurd (hi.symm.trans hh) (by decide)

/-- Settles O47: by induction on the number of steps, each of which stays in normal operation. -/
theorem normalOperationNeverEnds : Obligations.NormalOperationNeverEnds := by
  unfold Obligations.NormalOperationNeverEnds
  intro s n
  induction n generalizing s with
  | zero => exact fun hi => ⟨s, rfl, hi⟩
  | succ n ih =>
    intro hi
    obtain ⟨u, hstep, hu⟩ := exists_step_next_of_normal hi
    obtain ⟨t, hrun, ht⟩ := ih u hu
    exact ⟨t, (runSteps_succ_of_next n hstep).trans hrun, ht⟩

end Sys2Proof.Machine

namespace Sys2Proof.Machine

/-! ## Frames and invariants over commands, steps and runs (10_state.md section 5; 60_exceptions.md section 1) -/

/-- Settles O30: by the frame of the commands, and what each may change beside it. -/
theorem commandsLeaveOtherStateAlone : Obligations.CommandsLeaveOtherStateAlone := by
  unfold Obligations.CommandsLeaveOtherStateAlone
  intro i s t h
  refine ⟨exec_params h, exec_adcSample h, exec_phase h, exec_refusalMark h, exec_sent h, exec_issuer h, exec_rpt h,
    exec_inputs h, ?_⟩
  rintro rfl
  rw [eq_withRpt_of_exec_readReport h, State.withRpt_report]

/-- Settles O46: of a step's cases only the converter's writes the sample. -/
theorem onlyConverterWritesSample : Obligations.OnlyConverterWritesSample := by
  unfold Obligations.OnlyConverterWritesSample
  exact fun s ha => (step_stepCase s).adcSample_eq ha

/-- Settles O50: the reset draw is cut to `ADC_BITS` bits, and every step keeps the bound and the parameters. -/
theorem sampleBelowAdcBitsAndParametersConstant : Obligations.SampleBelowAdcBitsAndParametersConstant := by
  unfold Obligations.SampleBelowAdcBitsAndParametersConstant
  refine ⟨fun s hs => ?_, stepOn_params⟩
  exact hs.invariant (P := fun s => s.adcSample.toNat < 2 ^ s.params.adcBits)
    (hreset := fun p d _ _ _ => convertedSample_lt p.adcBits d)
    (hstep := fun _ => stepOn_sample_lt)

/-- Settles O39: each step leaves the words of the mark where they are, and so does any number of them. -/
theorem refusalMarkStays : Obligations.RefusalMarkStays := by
  unfold Obligations.RefusalMarkStays
  exact iterate_stepOn_refusalMark_prefix

/-- Settles O40: of a step's cases only the reserved word answers no next state. -/
theorem onlyReservedWordsStopAStep : Obligations.OnlyReservedWordsStopAStep := by
  unfold Obligations.OnlyReservedWordsStopAStep State.StepsOn
  intro s
  have hcase := step_stepCase s
  generalize step s = o at hcase
  cases hcase with
  | converter | poll | refresh | send | command => exact .inl ⟨_, rfl⟩
  | reserved ha hi why hd => exact .inr ⟨hi, ha, why, _, hd, rfl⟩

/-! ## Reset and power cycle (10_state.md R33; 60_exceptions.md R173; 70_reset_and_hazards.md R180) -/

theorem resetWith_adcSample_lt (p : Params) (d : Half) : (State.resetWith p d).adcSample.toNat < 2 ^ p.adcBits :=
  convertedSample_lt p.adcBits d

/-- Settles O2: the reset draw is cut to `ADC_BITS` bits, which keeps every value that fits. -/
theorem resetLeavesPollPhaseAndAnySample : Obligations.ResetLeavesPollPhaseAndAnySample := by
  unfold Obligations.ResetLeavesPollPhaseAndAnySample
  intro p _
  refine ⟨fun d => ?_, fun v hv => ⟨v, convertedSample_of_lt p.adcBits v hv⟩⟩
  exact ⟨rfl, rfl, resetWith_adcSample_lt p d, rfl, rfl, rfl, _, exec_refresh _, refreshReport_whammy _ _ _⟩

/-- Nothing has been returned or offered after reset, and the report is idle. -/
theorem resetWith_inv {p : Params} (hp : p.Wf) (d : Half) : (State.resetWith p d).Inv where
  params := hp
  report := Report.idle_unusedZero
  sample := resetWith_adcSample_lt p d
  returned := List.forall_mem_nil _
  offered := List.forall_mem_nil _

/-- The descriptor's structure that the spec gives agrees with the record, and `ADC_BITS` = 16 is legal. -/
theorem config_params_wf : Config.params.Wf :=
  ⟨by decide, by decide, (by decide : Config.declaredSchema.Agrees)⟩

/-- Settles O3: legal parameters, an idle report and a sample cut to `ADC_BITS` bits. -/
theorem resetMeetsInvariant : Obligations.ResetMeetsInvariant := by
  unfold Obligations.ResetMeetsInvariant
  exact ⟨resetWith_inv config_params_wf Config.resetDraw, fun p d hp => resetWith_inv hp d⟩

/-- Settles O4: a power cycle reads the parameters and the draws to come, and nothing else of the state. -/
theorem powerCycleForgetsAllState : Obligations.PowerCycleForgetsAllState := by
  unfold Obligations.PowerCycleForgetsAllState
  constructor
  · intro s u d hparams hinputs
    rw [powerCycle, powerCycle, hparams, hinputs]
  · exact fun s d => ⟨rfl, rfl, rfl, rfl, resetWith_adcSample_lt s.params d⟩

/-! ## The command that a step issues (30_encoding.md R60; 42_orchestration.md R141, R147) -/

/-- A word that decodes is run as its instruction. -/
theorem issue_of_decode_ok {c : Command} {i : Instr} (h : decode c = .ok i) (s : State) : issue c s = exec i s := by
  simp only [issue, h]

/-- Settles O18: by who issues the command and, for the controller, its phase. -/
theorem stepRunsDecodedCommand : Obligations.StepRunsDecodedCommand := by
  unfold Obligations.StepRunsDecodedCommand
  refine fun s ha => ⟨fun i hi hd => ?_, fun hi hp => ?_, fun hi hp => ?_⟩
  · rw [step_harness ha hi, issue_of_decode_ok hd]
  · rw [step_refresh ha hi hp, exec_refresh, mapNext_next]
    rfl
  · rw [step_send ha hi hp, exec_readReport, mapNext_next]
    rfl

/-- A harness that is about to issue `c` issues it in the next step, and takes back the two draws placed for it. -/
theorem step_aboutToIssue (c : Command) (s : State) : step (aboutToIssue c s) = issue c (s.withIssuer .harness) :=
  step_harness (s := aboutToIssue c s) rfl rfl

theorem decode_of_decodeTableWord {nbits w : Nat} {i : Instr} (h : decodeTableWord nbits w = some i) :
    decode (commandOfBits nbits w) = .ok i := by
  unfold decodeTableWord at h
  split at h
  · cases h
    assumption
  · cases h

/-- Settles O19: the placed command is the one that the next step issues. -/
theorem placedInstructionRunsNext : Obligations.PlacedInstructionRunsNext := by
  unfold Obligations.PlacedInstructionRunsNext
  intro s nbits w i h
  rw [State.withFetchWord, step_aboutToIssue, issue_of_decode_ok (decode_of_decodeTableWord h)]

/-! ## Parameters under commands (10_state.md R34) -/

/-- With other parameters a command that completes does the same. -/
theorem exec_withParams {i : Instr} {s t : State} (p : Params) (h : exec i s = .next t) :
    exec i (s.withParams p) = .next (t.withParams p) := by
  obtain ⟨rfl, rfl⟩ | ⟨rfl, rfl⟩ | ⟨idx, val, rfl, hidx, rfl⟩ | ⟨idx, val, rfl, hidx, rfl⟩ | ⟨v, rfl, rfl⟩ :=
    exec_next_cases h
  · exact exec_refresh _
  · exact exec_readReport _
  · exact exec_setf hidx val _
  · exact exec_setb hidx val _
  · exact exec_wrwh v _

/-- Settles O37: a legal word does the same with other parameters, and a reserved one is refused whatever they are. -/
theorem parametersNeitherReadNorChanged : Obligations.ParametersNeitherReadNorChanged := by
  unfold Obligations.ParametersNeitherReadNorChanged
  intro c s p
  obtain ⟨i, t, hd, -, hissue, he⟩ | ⟨why, hd, hissue⟩ := issue_cases c s
  · exact .inl ⟨t, hissue.trans he, exec_params he, (issue_of_decode_ok hd _).trans (exec_withParams p he)⟩
  · exact .inr ⟨why, _, hissue, rfl, issue_of_decode_error hd _⟩

/-! ## The controller and the transport (42_orchestration.md R143 to R147) -/

/-- Settles O45: of a step's cases only the refresh and a harness's command write the report. -/
theorem onlyRefreshPhaseWritesReport : Obligations.OnlyRefreshPhaseWritesReport := by
  unfold Obligations.OnlyRefreshPhaseWritesReport
  intro s t hi h hne
  have hcase := h ▸ step_stepCase s
  cases hcase with
  | converter | poll | send => exact absurd rfl hne
  | refresh ha _ hp => exact ⟨hp, ha, rfl⟩
  | command _ hh => exact absurd (hi.symm.trans hh) (by decide)

/-- The controller's turn in the phase `Send`, with the answer `r` at the head of its queue, offers the image and
records `r`. -/
theorem step_send_of_answer {s : State} (ha : s.nextAgent = .controller) (hi : s.Normal) (hp : s.phase = .send)
    (r : SendResult) (q : List SendResult) :
    step (s.withInputs { s.inputs with sends := r :: q }) =
      .next { s.withInputs { s.popAgent.inputs with sends := q } with
        rpt := some s.report.image, sent := s.sent ++ [{ bytes := s.report.image, result := r }], phase := .poll } :=
  step_send (s := s.withInputs { s.inputs with sends := r :: q }) ha hi hp

/-- Settles O43: the answer of the transport is recorded, and nothing else depends on it. -/
theorem busyFrameIsDropped : Obligations.BusyFrameIsDropped := by
  unfold Obligations.BusyFrameIsDropped
  intro s q hi hp ha
  exact ⟨_, _, step_send_of_answer ha hi hp .busy q, step_send_of_answer ha hi hp .accepted q, rfl, rfl, rfl, rfl, rfl⟩

/-- In the phase `Poll`, with the next `k + 1` polls false, a scripted turn of either agent changes the sample and the
draws to come alone, and the `k` polls after the first are false still. -/
theorem step_of_false_polls {s : State} {a : Agent} {q : List Agent} {k : Nat} {more : List Bool} (hi : s.Normal)
    (hp : s.phase = .poll) (hagents : s.inputs.agents = a :: q)
    (hpolls : s.inputs.polls = List.replicate (k + 1) false ++ more) :
    ∃ (v : Half) (e : Inputs) (more' : List Bool), e.agents = q ∧ e.polls = List.replicate k false ++ more' ∧
      step s = .next ((s.withAdcSample v).withInputs e) := by
  obtain ⟨ha, hpop⟩ := nextAgent_of_cons s a q hagents
  cases a with
  | converter =>
    refine ⟨_, s.popAgent.popSample.inputs, false :: more, popAgent_agents_of_cons hagents, ?_, step_converter ha⟩
    rw [List.append_cons, ← List.replicate_succ', ← hpolls]
    rfl
  | controller =>
    have hfalse : s.popAgent.nextPoll = false := by
      rw [hpop]
      simp [State.nextPoll, hpolls, List.replicate_succ]
    refine ⟨s.adcSample, s.popAgent.popPoll.inputs, more, popAgent_agents_of_cons hagents, ?_, ?_⟩
    · rw [hpop]
      simp [State.popPoll, hpolls, List.replicate_succ]
    · rw [step_poll ha hi hp, hfalse, ← hp]
      rfl

/-- So does any number of turns, as long as the polls are false. -/
theorem runSteps_of_false_polls {turns rest : List Agent} {more : List Bool} {k : Nat} {s : State} (hi : s.Normal)
    (hp : s.phase = .poll) (hagents : s.inputs.agents = turns ++ rest)
    (hpolls : s.inputs.polls = List.replicate k false ++ more) (hk : turns.length ≤ k) :
    ∃ (v : Half) (e : Inputs), runSteps turns.length s = .next ((s.withAdcSample v).withInputs e) := by
  induction turns generalizing k s more with
  | nil => exact ⟨s.adcSample, s.inputs, rfl⟩
  | cons a turns ih =>
    obtain ⟨k, rfl⟩ : ∃ j, k = j + 1 := Nat.exists_eq_add_of_le' (Nat.one_le_of_lt hk)
    obtain ⟨v, e, more', heagents, hepolls, hstep⟩ := step_of_false_polls hi hp hagents hpolls
    obtain ⟨v', e', hrun⟩ :=
      ih (s := (s.withAdcSample v).withInputs e) hi hp heagents hepolls (Nat.le_of_succ_le_succ hk)
    exact ⟨v', e', (runSteps_succ_of_next turns.length hstep).trans hrun⟩

/-- Settles O44: each turn changes the sample and the draws to come alone. -/
theorem noPollNoRefreshNoSend : Obligations.NoPollNoRefreshNoSend := by
  unfold Obligations.NoPollNoRefreshNoSend
  intro turns rest more k s hi hp hagents hpolls hk
  obtain ⟨v, e, hrun⟩ := runSteps_of_false_polls hi hp hagents hpolls hk
  exact ⟨_, hrun, hp, rfl, rfl, rfl, rfl⟩

end Sys2Proof.Machine

namespace Sys2Proof.Machine

/-! ## Reserved words by their reasons (30_encoding.md R64) -/

theorem opField_toNat (cmd : Byte) : (opField cmd).toNat = cmd.toNat / 16 := by
  rw [opField, BitVec.extractLsb'_toNat, Nat.shiftRight_eq_div_pow, Nat.mod_eq_of_lt (by omega)]

theorem zField_toNat (cmd : Byte) : (zField cmd).toNat = cmd.toNat % 16 := by
  rw [zField, BitVec.extractLsb'_toNat, Nat.shiftRight_zero]

theorem idxField_toNat (cmd : Byte) : (idxField cmd).toNat = cmd.toNat / 2 % 8 := by
  rw [idxField, BitVec.extractLsb'_toNat, Nat.shiftRight_eq_div_pow]

/-- The words that 30_encoding.md section 4 lists as reserved for a reason (R64), or as legal. -/
def WordRange (n : Nat) : Option Reserved → Prop
  | some .operation => n < 0x10 ∨ 0x60 ≤ n
  | some .lowNibble => (0x11 ≤ n ∧ n ≤ 0x1F) ∨ (0x21 ≤ n ∧ n ≤ 0x2F) ∨ (0x51 ≤ n ∧ n ≤ 0x5F)
  | some .fretIndex => 0x3C ≤ n ∧ n ≤ 0x3F
  | some .buttonIndex => 0x4A ≤ n ∧ n ≤ 0x4F
  | none => n = 0x10 ∨ n = 0x20 ∨ (0x30 ≤ n ∧ n ≤ 0x3B) ∨ (0x40 ≤ n ∧ n ≤ 0x49) ∨ n = 0x50

/-- No word is listed twice. -/
theorem WordRange.unique {n : Nat} {x y : Option Reserved} (hx : WordRange n x) (hy : WordRange n y) : x = y := by
  rcases x with _ | ⟨⟨⟩⟩ <;> rcases y with _ | ⟨⟨⟩⟩ <;> simp only [WordRange, reduceCtorEq] at hx hy ⊢ <;> omega

/-- The word of a well-formed instruction is listed as legal. -/
theorem wordRange_encodeWord {i : Instr} (hi : i.WellFormed) : WordRange (encodeWord i).toNat none := by
  cases i with
  | refresh => exact .inl rfl
  | readReport => exact .inr (.inl rfl)
  | setf idx val =>
    have hn : (encodeWord (.setf idx val)).toNat = 0x30 + 2 * idx.toNat + val.toNat := toNat_append_idx_val _ idx val
    have hidx : idx.toNat < 6 := hi
    have hval := val.toNat_lt
    exact .inr (.inr (.inl (by omega)))
  | setb idx val =>
    have hn : (encodeWord (.setb idx val)).toNat = 0x40 + 2 * idx.toNat + val.toNat := toNat_append_idx_val _ idx val
    have hidx : idx.toNat < 5 := hi
    have hval := val.toNat_lt
    exact .inr (.inr (.inr (.inl (by omega))))
  | wrwh v => exact .inr (.inr (.inr (.inr rfl)))

/-- A word that the decoder rejects is listed as reserved for the reason given. -/
theorem wordRange_of_decode_error {c : Command} {why : Reserved} (h : decode c = .error why) :
    WordRange c.cmd.toNat (some why) := by
  have hop := opField_toNat c.cmd
  have hz := zField_toNat c.cmd
  have hidx := idxField_toNat c.cmd
  unfold decode at h
  split at h <;> (try split at h) <;> cases h <;> simp only [WordRange]
  · bv_omega
  · bv_omega
  · have hge : ¬(idxField c.cmd).toNat < 6 := ‹_›
    bv_omega
  · have hge : ¬(idxField c.cmd).toNat < 5 := ‹_›
    bv_omega
  · bv_omega
  · simp only [imp_false, BitVec.toNat_eq, BitVec.toNat_ofNat] at *
    omega

/-- The decoder rejects a word for a reason exactly when the word is listed for it. -/
theorem decode_error_iff (c : Command) (why : Reserved) :
    decode c = .error why ↔ WordRange c.cmd.toNat (some why) := by
  refine ⟨wordRange_of_decode_error, fun hwhy => ?_⟩
  cases hd : decode c with
  | ok i =>
    have hlegal := wordRange_encodeWord (wellFormed_of_decode hd)
    rw [encodeWord_of_decode hd] at hlegal
    cases hwhy.unique hlegal
  | error why' => rw [Option.some.inj (hwhy.unique (wordRange_of_decode_error hd))]

/-- Settles O11: the list of R64, reason by reason. -/
theorem reservedWordsRejectedByName : Obligations.ReservedWordsRejectedByName := by
  unfold Obligations.ReservedWordsRejectedByName
  exact fun c => ⟨decode_error_iff c .operation, decode_error_iff c .lowNibble, decode_error_iff c .fretIndex,
    decode_error_iff c .buttonIndex⟩

/-- What a word other than 0x50 decodes to does not depend on `dat` (30_encoding.md R60). -/
theorem decode_dat {cmd : Byte} (hcmd : cmd ≠ 0x50#8) (dat dat' : Half) :
    decode { cmd := cmd, dat := dat } = decode { cmd := cmd, dat := dat' } := by
  cases h : decode { cmd := cmd, dat := dat } with
  | ok i =>
    have hword : encodeWord i = cmd := encodeWord_of_decode h
    refine (decode_of_wellFormed (wellFormed_of_decode h) hword ?_).symm
    rintro imm16 rfl
    exact absurd hword.symm hcmd
  | error why =>
    have hrange : WordRange cmd.toNat (some why) := wordRange_of_decode_error h
    exact ((decode_error_iff { cmd := cmd, dat := dat' } why).mpr hrange).symm

/-- Settles O16: only the decoder sees `dat`. -/
theorem datIgnoredButByWrwh : Obligations.DatIgnoredButByWrwh := by
  unfold Obligations.DatIgnoredButByWrwh
  intro cmd dat dat' s hcmd
  simp only [issue, decode_dat hcmd dat dat']

/-! ## Outcome tags (60_exceptions.md R161, R165) -/

theorem mem_fretLines_append_buttonLines (k : Line) : k ∈ fretLines ++ buttonLines :=
  List.mem_of_getElem? (getElem?_lineIndex k)

theorem lineFail_mem_lineFailTags (l : Lines) (k : Line) :
    Tag.lineFail k ∈ lineFailTags l ↔ readLine l k = .fail := by
  have hinj : Function.Injective Tag.lineFail := fun _ _ => Tag.lineFail.inj
  rw [lineFailTags, List.mem_map_of_injective hinj, List.mem_filter, beq_iff_eq,
    and_iff_right (mem_fretLines_append_buttonLines k)]

/-- The lines L0..L10 of 10_state.md R24, written out. -/
theorem lineIndex_of_number : ∀ k : Fin 11,
    lineIndex (#v[Line.fret1, .fret2, .fret3, .fret4, .fret5, .fret6, .strumUp, .strumDown, .start, .select,
      .hero][k]) = k := by
  decide

/-- Settles O29: an issued command completes or is refused as a reserved word, and a tag names each failed line. -/
theorem everyCommandHasOneTag : Obligations.EveryCommandHasOneTag := by
  unfold Obligations.EveryCommandHasOneTag
  refine ⟨fun c s => ?_, fun s => ?_, fun l k => ?_⟩
  · obtain ⟨i, t, -, -, hissue, he⟩ | ⟨why, -, hissue⟩ := issue_cases c s
    · exact .inl (by rw [hissue, he, commandTag])
    · exact .inr (by rw [hissue, commandTag])
  · rw [exec_refresh, commandTag]
  · rw [lineFail_mem_lineFailTags, readLine, lineIndex_of_number]
    rfl

/-! ## The image under the ports (20_memory.md R40) -/

theorem Report.withFrets_image (r : Report) (v : Byte) : (r.withFrets v).image = r.image.set 2 v := rfl

theorem Report.withButtons_image (r : Report) (v : Byte) : (r.withButtons v).image = r.image.set 3 v := rfl

theorem Report.withWhammy_image (r : Report) (v : Half) :
    (r.withWhammy v).image = (r.image.set 0 (v.extractLsb' 0 8)).set 1 (v.extractLsb' 8 8) := rfl

theorem report_of_exec_setf {idx : BitVec 3} {val : Bool} {s t : State} (h : exec (.setf idx val) s = .next t) :
    t.report = s.report.withFrets (setBit s.report.frets idx val) := by
  obtain ⟨hi, -⟩ | ⟨hi, -⟩ | ⟨_, _, hi, -, rfl⟩ | ⟨_, _, hi, -⟩ | ⟨_, hi, -⟩ := exec_next_cases h <;> cases hi
  rfl

theorem report_of_exec_setb {idx : BitVec 3} {val : Bool} {s t : State} (h : exec (.setb idx val) s = .next t) :
    t.report = s.report.withButtons (setBit s.report.buttons idx val) := by
  obtain ⟨hi, -⟩ | ⟨hi, -⟩ | ⟨_, _, hi, -⟩ | ⟨_, _, hi, -, rfl⟩ | ⟨_, hi, -⟩ := exec_next_cases h <;> cases hi
  rfl

theorem report_of_exec_wrwh {v : Half} {s t : State} (h : exec (.wrwh v) s = .next t) :
    t.report = s.report.withWhammy v := by
  rw [← Host.Outcome.next.inj ((exec_wrwh v s).symm.trans h), State.withReport_report]

/-- Settles O32: each port sets the bytes of its own field. -/
theorem imageBytesOutsideFieldKept : Obligations.ImageBytesOutsideFieldKept := by
  unfold Obligations.ImageBytesOutsideFieldKept
  refine fun s t k hk => ⟨fun idx val h hne => ?_, fun idx val h hne => ?_, fun v h hle => ?_, fun h => ?_⟩
  · simp only [report_of_exec_setf h, Report.withFrets_image, Vector.getElem_set_ne _ _ hne.symm]
  · simp only [report_of_exec_setb h, Report.withButtons_image, Vector.getElem_set_ne _ _ hne.symm]
  · have h0 : 0 ≠ k := by omega
    have h1 : 1 ≠ k := by omega
    simp only [report_of_exec_wrwh h, Report.withWhammy_image, Vector.getElem_set_ne _ _ h0,
      Vector.getElem_set_ne _ _ h1]
  · rw [eq_withRpt_of_exec_readReport h, State.withRpt_report]

/-! ## The descriptor's structure against the image (41_encoder.md R131 to R133) -/

/-- An agreeing descriptor declares the fields that the spec gives: a declaration is its place and its usage. -/
theorem fields_eq_of_agrees {sch : Schema} (h : sch.Agrees) : sch.fields = Config.declaredSchema.fields := by
  obtain ⟨-, -, hplaces, husages, -⟩ := h
  have hinj : Function.Injective fun d : FieldDecl => ((d.field, d.bitOffset, d.bitWidth), d.usage) := by
    rintro ⟨⟩ ⟨⟩ heq
    cases heq
    rfl
  apply List.map_injective_iff.mpr hinj
  rw [← List.zip_map', hplaces, husages]
  rfl

/-- A declared field is found in the report's input bits at its place. -/
theorem image_word32_toNat_field {d : FieldDecl} (hd : d ∈ Config.declaredSchema.fields) (r : Report) :
    r.image.word32.toNat / 2 ^ d.bitOffset % 2 ^ d.bitWidth = r.fieldValue d.field := by
  simp only [Config.declaredSchema, List.mem_cons, List.not_mem_nil, or_false] at hd
  simp only [← Nat.shiftRight_eq_div_pow, ← BitVec.extractLsb'_toNat]
  obtain rfl | rfl | rfl := hd
  · rw [r.image_word32_whammy, Report.fieldValue]
  · rw [r.image_word32_frets, Report.fieldValue]
  · rw [r.image_word32_buttons, Report.fieldValue]

/-- So is each bit of it. -/
theorem image_word32_getLsbD_field {d : FieldDecl} (hd : d ∈ Config.declaredSchema.fields) (r : Report) {j : Nat}
    (hj : j < d.bitWidth) : r.image.word32.getLsbD (d.bitOffset + j) = (r.fieldValue d.field).testBit j := by
  rw [← image_word32_toNat_field hd, Nat.testBit_mod_two_pow, decide_eq_true hj, Bool.true_and,
    Nat.testBit_div_two_pow, BitVec.testBit_toNat, Nat.add_comm]

/-- Usage n describes bit n - 1 of its field. -/
theorem declared_buttonUsage_bit : ∀ d ∈ Config.declaredSchema.fields, ∀ u ∈ d.usage.buttonUsages,
    u.bit = u.number - 1 ∧ u.number - 1 < d.bitWidth := by
  decide

/-- Settles O9: the declared places are those of the record, where the image holds the fields. -/
theorem descriptorMatchesImage : Obligations.DescriptorMatchesImage := by
  unfold Obligations.DescriptorMatchesImage
  rintro p ⟨-, -, hagrees⟩
  obtain ⟨-, -, -, -, hbits⟩ := id hagrees
  rw [fields_eq_of_agrees hagrees, hbits]
  refine ⟨fun d => image_word32_toNat_field, by decide, by decide, by decide, fun d hd u hu r => ?_⟩
  obtain ⟨hbit, hlt⟩ := declared_buttonUsage_bit d hd u hu
  rw [hbit, image_word32_getLsbD_field hd r hlt]
  refine ⟨rfl, fun hfield hnumber hz => ?_⟩
  have hvalue : r.fieldValue d.field < 2 ^ 5 := by
    rw [hfield]
    exact toNat_lt_of_extractLsb'_eq_zero (by decide) hz.2
  exact Nat.testBit_lt_two_pow (hvalue.trans_le (Nat.pow_le_pow_right (by decide) (Nat.le_sub_one_of_lt hnumber)))

end Sys2Proof.Machine

namespace Sys2Proof.Machine

/-! ## Words of a line (30_encoding.md R66; log 23) -/

/-- Characters that stand inside one word: no space, tab or comma is among them. -/
abbrev Unbroken (w : List Char) : Prop := ' ' ∉ w ∧ '\t' ∉ w ∧ ',' ∉ w

theorem Unbroken.append {w w' : List Char} (h : Unbroken w) (h' : Unbroken w') : Unbroken (w ++ w') := by
  obtain ⟨hs, ht, hc⟩ := h
  obtain ⟨hs', ht', hc'⟩ := h'
  exact ⟨List.not_mem_append hs hs', List.not_mem_append ht ht', List.not_mem_append hc hc'⟩

theorem lineWords_append {w : List Char} (cur rest : List Char) (h : Unbroken w) :
    lineWords cur (w ++ rest) = lineWords (w.reverse ++ cur) rest := by
  induction w generalizing cur with
  | nil => rfl
  | cons c w ih =>
    simp only [Unbroken, List.mem_cons, not_or] at h
    obtain ⟨⟨hspace, hs⟩, ⟨htab, ht⟩, ⟨hcomma, hc⟩⟩ := h
    rw [List.cons_append, lineWords, if_neg (not_or_intro (Ne.symm hspace) (Ne.symm htab)), if_neg (Ne.symm hcomma),
      ih _ ⟨hs, ht, hc⟩, List.reverse_cons, List.append_assoc, List.singleton_append]

theorem flushWord_reverse {w : List Char} (hne : w ≠ []) (rest : List (List Char)) :
    flushWord w.reverse rest = w :: rest := by
  obtain ⟨c, cs, hcs⟩ := List.exists_cons_of_ne_nil (List.reverse_ne_nil_iff.mpr hne)
  rw [hcs, flushWord, ← hcs, List.reverse_reverse]

/-- A word at the end of a line. -/
theorem lineWords_word {w : List Char} (hne : w ≠ []) (h : Unbroken w) : lineWords [] w = [w] := by
  have happend := lineWords_append [] [] h
  rwa [List.append_nil, List.append_nil, lineWords, flushWord_reverse hne] at happend

/-- A word before a space. -/
theorem lineWords_word_space {w : List Char} (rest : List Char) (hne : w ≠ []) (h : Unbroken w) :
    lineWords [] (w ++ ' ' :: rest) = w :: lineWords [] rest := by
  rw [lineWords_append _ _ h, List.append_nil, lineWords, if_pos (.inl rfl), flushWord_reverse hne]

/-! ## Hexadecimal numbers -/

theorem hexDigit_hexChar : ∀ d : BitVec 4, hexDigit (hexChar d) = some d.toNat := by decide

/-- A hex digit is one of 16 characters. -/
theorem hexChar_mem : ∀ d : BitVec 4, hexChar d ∈ "0123456789ABCDEF".toList := by decide

theorem not_mem_map_hexChar (ds : List (BitVec 4)) {c : Char} (hc : c ∉ "0123456789ABCDEF".toList) :
    c ∉ ds.map hexChar := by
  intro hmem
  obtain ⟨d, -, rfl⟩ := List.mem_map.mp hmem
  exact hc (hexChar_mem d)

theorem unbroken_map_hexChar (ds : List (BitVec 4)) : Unbroken (ds.map hexChar) :=
  ⟨not_mem_map_hexChar ds (by decide), not_mem_map_hexChar ds (by decide), not_mem_map_hexChar ds (by decide)⟩

/-- The four hex digits of a 16-bit value, the highest first. -/
def hexDigits (v : Half) : List (BitVec 4) :=
  [v.extractLsb' 12 4, v.extractLsb' 8 4, v.extractLsb' 4 4, v.extractLsb' 0 4]

theorem showInstr_wrwh (v : Half) : showInstr (.wrwh v) = "WRWH #0x".toList ++ (hexDigits v).map hexChar := rfl

theorem digitsValue_hexChar (acc : Nat) (ds : List (BitVec 4)) :
    digitsValue hexDigit 16 acc (ds.map hexChar) = some (ds.foldl (fun n d => n * 16 + d.toNat) acc) := by
  induction ds generalizing acc with
  | nil => rfl
  | cons d ds ih => simp only [List.map_cons, digitsValue, hexDigit_hexChar, List.foldl_cons, ih]

theorem foldl_hexDigits (v : Half) : (hexDigits v).foldl (fun n d => n * 16 + d.toNat) 0 = v.toNat := by
  simp only [hexDigits, List.foldl_cons, List.foldl_nil, BitVec.extractLsb'_toNat, Nat.shiftRight_eq_div_pow]
  omega

/-- `#0x` and the hex digits of a value are read back as the value. -/
theorem immOperand_hexDigits (v : Half) :
    immOperand 16 ('#' :: '0' :: 'x' :: (hexDigits v).map hexChar) = .ok v := by
  have hnumber : number ('0' :: 'x' :: (hexDigits v).map hexChar) = some v.toNat := by
    rw [← foldl_hexDigits v, ← digitsValue_hexChar]
    rfl
  simp only [immOperand, hnumber, if_pos v.isLt, BitVec.ofNat_toNat, BitVec.setWidth_eq]

/-! ## A written instruction as a line and as a text -/

/-- A line without a `;` has no comment. -/
theorem withoutComment_of_not_mem {cs : List Char} (h : ';' ∉ cs) : withoutComment cs = cs :=
  List.takeWhile_eq_self_iff.mpr fun _ hc => bne_iff_ne.mpr (ne_of_mem_of_not_mem hc h)

/-- A text without a line break is one line. -/
theorem textLines_of_not_mem {cs : List Char} (cur : List Char) (h : '\n' ∉ cs) :
    textLines cur cs = [cur.reverse ++ cs] := by
  induction cs generalizing cur with
  | nil => rw [textLines, List.append_nil]
  | cons c cs ih =>
    obtain ⟨hc, hcs⟩ := List.ne_and_not_mem_of_not_mem_cons h
    rw [textLines, if_neg hc.symm, ih _ hcs, List.reverse_cons, List.append_assoc, List.singleton_append]

/-- A text of one line assembles to the commands of the line. -/
theorem assemble_of_assembleLine {cs : List Char} {is : List Instr} (h : '\n' ∉ cs)
    (hline : assembleLine cs = .ok is) : assemble cs = .ok (is.map encode) := by
  simp only [assemble, textLines_of_not_mem [] h, List.reverse_nil, List.nil_append, assembleLines, hline,
    List.append_nil, Except.map]

/-- The written form has no comment and no line break. -/
theorem showInstr_not_mem (i : Instr) : ';' ∉ showInstr i ∧ '\n' ∉ showInstr i := by
  cases i with
  | refresh => decide
  | readReport => decide
  | setf idx val => revert idx val; decide
  | setb idx val => revert idx val; decide
  | wrwh v =>
    rw [showInstr_wrwh]
    exact ⟨List.not_mem_append (by decide) (not_mem_map_hexChar _ (by decide)),
      List.not_mem_append (by decide) (not_mem_map_hexChar _ (by decide))⟩

theorem lineWords_showInstr_wrwh (v : Half) :
    lineWords [] (showInstr (.wrwh v)) = ["WRWH".toList, '#' :: '0' :: 'x' :: (hexDigits v).map hexChar] := by
  have hword : Unbroken (['#', '0', 'x'] ++ (hexDigits v).map hexChar) :=
    Unbroken.append (by decide) (unbroken_map_hexChar _)
  calc lineWords [] (showInstr (.wrwh v))
    _ = lineWords [] ("WRWH".toList ++ ' ' :: (['#', '0', 'x'] ++ (hexDigits v).map hexChar)) := rfl
    _ = ["WRWH".toList, ['#', '0', 'x'] ++ (hexDigits v).map hexChar] := by
      rw [lineWords_word_space _ (by decide) (by decide), lineWords_word (by simp) hword]

/-- The words of a written instruction stand for it. -/
theorem lineInstrs_showInstr {i : Instr} (hi : i.WellFormed) : lineInstrs (lineWords [] (showInstr i)) = .ok [i] := by
  cases i with
  | refresh => decide
  | readReport => decide
  | setf idx val => revert idx val; decide
  | setb idx val => revert idx val; decide
  | wrwh v =>
    rw [lineWords_showInstr_wrwh, lineInstrs, if_pos rfl, immOperand_hexDigits]
    rfl

theorem assembleLine_showInstr {i : Instr} (hi : i.WellFormed) : assembleLine (showInstr i) = .ok [i] := by
  rw [assembleLine, withoutComment_of_not_mem (showInstr_not_mem i).1, lineInstrs_showInstr hi]

/-- Settles O17: the written form is one line, whose words stand for the instruction. -/
theorem writtenInstructionAssembles : Obligations.WrittenInstructionAssembles := by
  unfold Obligations.WrittenInstructionAssembles
  exact fun i hi =>
    ⟨assembleLine_showInstr hi, assemble_of_assembleLine (showInstr_not_mem i).2 (assembleLine_showInstr hi)⟩

end Sys2Proof.Machine
